-- ==== Sys2Proof/Word.lean ====
section
/-! DEFINITION. The plain data words of the BCU: bytes, colours and pixels (00_scope.md R6, R9). -/

namespace Sys2Proof

/-- A byte is 8 bits (00_scope.md R9). -/
abbrev Byte := BitVec 8

/-- A raw packed 5-6-5 colour endpoint, and the width of `W`, `H` and `ROW` (00_scope.md R6). -/
abbrev Half := BitVec 16

/-- The width of `IDX`, `CRC`, `DLEN` and the chunk fields (00_scope.md R6). -/
abbrev Word := BitVec 32

/-- The format code `f` of the operand `FMT`: exactly two values are recognised (30_encoding.md R82).
The numbers behind them are in no source, so the two are constructors and distinct by construction
(92_eei_decisions.md D4). -/
inductive FormatCode where
  | bc1
  | bc3
  | other (n : Nat)
deriving DecidableEq, Repr

/-- The two commands of the operand register `OP` (30_encoding.md R81, R90(d)). -/
inductive Op where
  | decimg
  | encfile
deriving DecidableEq, Repr

/-- Three 8-bit channels, the shape of `E0` and `E1` (10_state.md R26). -/
structure Rgb where
  r : Byte
  g : Byte
  b : Byte
deriving DecidableEq, Repr

/-- A pixel `(R, G, B, A)` of four 8-bit components (00_scope.md R9, 30_encoding.md R96). -/
structure Pixel where
  r : Byte
  g : Byte
  b : Byte
  a : Byte
deriving DecidableEq, Repr

/-- A chunk type tag: 4 bytes (30_encoding.md R92, R93). -/
structure Tag where
  t0 : Byte
  t1 : Byte
  t2 : Byte
  t3 : Byte
deriving DecidableEq, Repr

end Sys2Proof
end

