-- ==== Sys2Proof/Syntax.lean ====
section
/-! DEFINITION. The operations of the BCU: one constructor for each row of spec/opcode_table.json
(30_encoding.md R98), and the command record (30_encoding.md R81). -/

namespace Sys2Proof

/-- The command record `(OP, FMT, W, H, PLEN, BLEN)` of format CMD. It has no bit layout
(30_encoding.md R81). -/
structure CommandRecord where
  op   : Op
  fmt  : FormatCode
  w    : Half
  h    : Half
  plen : Nat
  blen : Nat
deriving DecidableEq, Repr

/-- The operations. A command carries the fields of its record that it reads; a block operation the
fields of its block; a primitive its "in" operands that are no register. -/
inductive Instr where
  -- commands (43_assembler.md R160, R168, R169; 45_file_encoder.md R207, R211)
  | decimgBc1 (w h : Half) (plen : Nat)
  | decimgBc3 (w h : Half) (plen : Nat)
  | decimgOther (f : FormatCode) (w h : Half) (plen : Nat)
  | encfile (w h : Half) (blen : Nat)
  | convert (f : FormatCode) (w h : Half) (plen : Nat)
  -- sequencer steps of DECIMG (43_assembler.md R160 to R167)
  | validate
  | grid
  | stride
  | imgInit
  | blkNext
  | blkFetch
  | dispatch
  | pixStore
  -- block operations (41_bc1.md R126, 42_bc3.md R146)
  | bc1DecPal4 (c0 c1 : Half) (idx : Word)
  | bc1DecPal3t (c0 c1 : Half) (idx : Word)
  | bc3DecAramp8 (a0 a1 : Byte) (abits : BitVec 48) (c0 c1 : Half) (idx : Word)
  | bc3DecAramp6 (a0 a1 : Byte) (abits : BitVec 48) (c0 c1 : Half) (idx : Word)
  -- colour endpoint primitives (40_color_endpoints.md R110 to R113)
  | unpack565 (c : Half)
  | exp5 (v : BitVec 5)
  | exp6 (v : BitVec 6)
  | endpt (c : Half)
  -- BC1 primitives (41_bc1.md R120 to R125)
  | bc1Parse (b : BitVec 64)
  | cmp16
  | palBase
  | pal4
  | pal3t
  | idx2 (p : BitVec 4)
  -- BC3 primitives (42_bc3.md R140 to R145)
  | bc3Parse (b : BitVec 128)
  | cmp8
  | aramp8
  | aramp6
  | idx3 (p : BitVec 4)
  | bc3Color
  -- checksum primitives and the chunk (44_crc_frame.md R180 to R186)
  | be32 (v : Word)
  | crc32Init
  | crc32Upd (x : Byte)
  | crc32Fin
  | crc32 (s : List Byte)
  | chunk (tag : Tag) (data : List Byte)
  -- encoder phases (45_file_encoder.md R200 to R206)
  | encValidate
  | sig
  | ihdr
  | scan
  | compress
  | idat
  | iend
deriving DecidableEq, Repr

end Sys2Proof
end

