-- ==== Sys2Proof/Machine/Operands.lean ====
section
/-! DEFINITION. Operand forms: the endian primitives (00_scope.md R11), the fields of the block formats
(30_encoding.md R83 to R87), the per-pixel selectors (41_bc1.md R125, 42_bc3.md R144), the bytes of pixels and tags. -/

namespace Sys2Proof

/-- The 4 bytes of a pixel in memory order R, G, B, A (20_memory.md R52). -/
def Pixel.bytes (p : Pixel) : List Byte := [p.r, p.g, p.b, p.a]

/-- The opaque pixel of a colour: alpha 255 (30_encoding.md R96). -/
def Rgb.solid (c : Rgb) : Pixel := ⟨c.r, c.g, c.b, 255⟩

/-- Transparent black, `(0,0,0,0)`. -/
def Pixel.clear : Pixel := ⟨0, 0, 0, 0⟩

/-- The tag's bytes in file order. -/
def Tag.bytes (t : Tag) : List Byte := [t.t0, t.t1, t.t2, t.t3]

/-- `IHDR` (30_encoding.md R93). -/
def Tag.ihdr : Tag := ⟨0x49, 0x48, 0x44, 0x52⟩

/-- `IDAT` (30_encoding.md R93). -/
def Tag.idat : Tag := ⟨0x49, 0x44, 0x41, 0x54⟩

/-- `IEND` (30_encoding.md R93). -/
def Tag.iend : Tag := ⟨0x49, 0x45, 0x4E, 0x44⟩

end Sys2Proof

namespace Sys2Proof.Machine

/-- `LE16`, `LE32`, `LE48` and `LE64` at once: byte `i` has weight `2^(8*i)` (00_scope.md R11, 30_encoding.md R83). -/
def leNat : List Byte → Nat
  | [] => 0
  | b :: bs => b.toNat + 256 * leNat bs

/-- The `n` bytes of a value, the least significant first (20_memory.md R57). -/
def leBytes : Nat → Nat → List Byte
  | 0, _ => []
  | n + 1, v => BitVec.ofNat 8 v :: leBytes n (v / 256)

/-- `BE32`: 4 bytes, the most significant first (44_crc_frame.md R180). -/
def be32 (v : Word) : List Byte :=
  [v.extractLsb' 24 8, v.extractLsb' 16 8, v.extractLsb' 8 8, v.extractLsb' 0 8]

/-- The value of a big-endian byte string: the byte at the lowest offset has the most weight (00_scope.md R11). -/
def beNat (bs : List Byte) : Nat := leNat bs.reverse

/-- `B = LE64(b)` of an 8-byte block (30_encoding.md R83). -/
def le64 (bs : List Byte) : BitVec 64 := BitVec.ofNat 64 (leNat bs)

/-- `B = LE128(b)` of a 16-byte block (30_encoding.md R86). -/
def le128 (bs : List Byte) : BitVec 128 := BitVec.ofNat 128 (leNat bs)

/-- `C0 = B[15:0]` (30_encoding.md R83). -/
def b64C0 (b : BitVec 64) : Half := b.extractLsb' 0 16

/-- `C1 = B[31:16]` (30_encoding.md R83). -/
def b64C1 (b : BitVec 64) : Half := b.extractLsb' 16 16

/-- `IDX = B[63:32]` (30_encoding.md R83). -/
def b64Idx (b : BitVec 64) : Word := b.extractLsb' 32 32

/-- `A0 = B[7:0]` (30_encoding.md R86). -/
def b128A0 (b : BitVec 128) : Byte := b.extractLsb' 0 8

/-- `A1 = B[15:8]` (30_encoding.md R86). -/
def b128A1 (b : BitVec 128) : Byte := b.extractLsb' 8 8

/-- `ABITS = B[63:16]` (30_encoding.md R86). -/
def b128Abits (b : BitVec 128) : BitVec 48 := b.extractLsb' 16 48

/-- `C0 = B[79:64]` (30_encoding.md R86). -/
def b128C0 (b : BitVec 128) : Half := b.extractLsb' 64 16

/-- `C1 = B[95:80]` (30_encoding.md R86). -/
def b128C1 (b : BitVec 128) : Half := b.extractLsb' 80 16

/-- `IDX = B[127:96]` (30_encoding.md R86). -/
def b128Idx (b : BitVec 128) : Word := b.extractLsb' 96 32

/-- The B64 word of three fields (30_encoding.md R83). -/
def b64Of (c0 c1 : Half) (idx : Word) : BitVec 64 := idx ++ c1 ++ c0

/-- The B128 word of six fields (30_encoding.md R86). -/
def b128Of (a0 a1 : Byte) (abits : BitVec 48) (c0 c1 : Half) (idx : Word) : BitVec 128 :=
  idx ++ c1 ++ c0 ++ abits ++ a1 ++ a0

/-- `r5 = c[15:11]` (30_encoding.md R84, 40_color_endpoints.md R110). -/
def red5 (c : Half) : BitVec 5 := c.extractLsb' 11 5

/-- `g6 = c[10:5]` (30_encoding.md R84, 40_color_endpoints.md R110). -/
def green6 (c : Half) : BitVec 6 := c.extractLsb' 5 6

/-- `b5 = c[4:0]` (30_encoding.md R84, 40_color_endpoints.md R110). -/
def blue5 (c : Half) : BitVec 5 := c.extractLsb' 0 5

/-- `IDX2(IDX, p) = IDX[2p+1 : 2p]` (41_bc1.md R125). -/
def selector2 (idx : Word) (p : Nat) : BitVec 2 := idx.extractLsb' (2 * p) 2

/-- `IDX3(ABITS, p) = ABITS[3p+2 : 3p]` (42_bc3.md R144). -/
def selector3 (abits : BitVec 48) (p : Nat) : BitVec 3 := abits.extractLsb' (3 * p) 3

end Sys2Proof.Machine
end

