-- ==== Sys2Proof/Machine/Checksum.lean ====
section
/-! DEFINITION. CRC-32 on values (44_crc_frame.md R181 to R184) and the chunk frame of format CHK
(30_encoding.md R92). -/

namespace Sys2Proof.Machine

/-- The start value (44_crc_frame.md R181). -/
def crcStart : Word := 0xFFFFFFFF

/-- One shift step with the reflected polynomial (44_crc_frame.md R182). -/
def crcShift (c : Word) : Word :=
  if c.getLsbD 0 then (c >>> 1) ^^^ 0xEDB88320 else c >>> 1

/-- `n` shift steps. -/
def crcShifts : Nat → Word → Word
  | 0, c => c
  | n + 1, c => crcShifts n (crcShift c)

/-- Absorb one byte: it enters at the low 8 bits, then 8 shift steps (44_crc_frame.md R182). -/
def crcAbsorb (c : Word) (x : Byte) : Word := crcShifts 8 (c ^^^ x.setWidth 32)

/-- Absorb a byte string in order of increasing offset (44_crc_frame.md R184). -/
def crcAbsorbAll (c : Word) : List Byte → Word
  | [] => c
  | x :: xs => crcAbsorbAll (crcAbsorb c x) xs

/-- The final inversion (44_crc_frame.md R183). -/
def crcFinish (c : Word) : Word := c ^^^ 0xFFFFFFFF

/-- `CRC32(s)` (44_crc_frame.md R184). -/
def crc32Of (s : List Byte) : Word := crcFinish (crcAbsorbAll crcStart s)

/-- The frame of a chunk: `BE32(len(data)) ++ tag ++ data ++ BE32(CRC32(tag ++ data))`
(30_encoding.md R92, 44_crc_frame.md R186). -/
def chunkFrame (tag : Tag) (data : List Byte) : List Byte :=
  be32 (BitVec.ofNat 32 data.length) ++ tag.bytes ++ data ++ be32 (crc32Of (tag.bytes ++ data))

end Sys2Proof.Machine
end

