-- ==== Sys2Proof/Machine/Flags.lean ====
section
/-! DEFINITION. The two condition flags (10_state.md R27). No operation has a carry, overflow, zero or sign flag. -/

namespace Sys2Proof.Machine

/-- `MODE4`: `C0 > C1` as unsigned integers, the raw packed values (41_bc1.md R121). -/
def mode4Of (c0 c1 : Half) : Bool := decide (c1.toNat < c0.toNat)

/-- `AMODE8`: `A0 > A1` as unsigned integers (42_bc3.md R141). -/
def amode8Of (a0 a1 : Byte) : Bool := decide (a1.toNat < a0.toNat)

end Sys2Proof.Machine
end

