-- ==== Sys2Proof/Config.lean ====
section
/-! DEFINITION. The open parameters of 00_scope.md R7. A parameter with a few known values is a field of `Parameters`,
which the step takes as an argument (10_state.md R33): it stands in the state, and every value runs. What has no value in
the spec is an opaque constant: no proof can see it. -/

namespace Sys2Proof.Config

/-- `RAMP_WEIGHTS`: the reading of the BC3 ramp weights (42_bc3.md R147). -/
inductive RampWeights where
  | asWritten
  | shifted
deriving DecidableEq, Repr

/-- `CHUNK_MAX`: the largest chunk data length that `CHUNK` accepts (44_crc_frame.md R187,
93_implementation_defined.md U5). -/
inductive ChunkMax where
  /-- `2^32 - 1`, the largest length the 4-byte field can hold: the rules as written. -/
  | lengthField
  /-- `2^31 - 1`, the limit of the file format's standard. -/
  | standard
deriving DecidableEq, Repr

/-- `ERR_ORDER`: which error a `DECIMG` with both faults reports (60_exceptions.md R226, 92_eei_decisions.md D12). -/
inductive ErrOrder where
  /-- `UnsupportedFormat`. -/
  | formatFirst
  /-- One of the two errors, the spec does not say which (log 10). -/
  | either
deriving DecidableEq, Repr

/-- The configuration of one machine (00_scope.md R7, 10_state.md R33 (a)). -/
structure Parameters where
  rampWeights : RampWeights
  errOrder    : ErrOrder
  chunkMax    : ChunkMax
deriving DecidableEq, Repr

/-- Under `ERR_ORDER = either`: does a machine given this format code, width and height report the format?
A free value, one for each operands, since outcomes are deterministic (60_exceptions.md R226, R230; log 10). -/
opaque reportsFormat : FormatCode → Half → Half → Bool

/-- `COMPRESS` as an uninterpreted total function on byte strings of which only `COMPRESS_lossless` is
assumed: different byte strings have different images, so some `INFLATE` undoes it
(45_file_encoder.md R204, 92_eei_decisions.md D17; log 9). -/
opaque compressor : RelEmbedding (α := List Byte) (β := List Byte) Eq Eq

/-- `COMPRESS` (45_file_encoder.md R204). -/
def compress (s : List Byte) : List Byte := compressor s

end Sys2Proof.Config
end

