-- ==== Sys2Proof/WellFormed.lean ====
section
/-! DEFINITION. The side conditions of the opcode table's rows, the "condition" column
(30_encoding.md R82, R88, R187). An operation whose row has no condition on its operands is well formed. -/

namespace Sys2Proof

/-- A format code outside the two recognised ones (30_encoding.md R82). -/
def FormatCode.unrecognised : FormatCode → Bool
  | .bc1 => false
  | .bc3 => false
  | .other _ => true

/-- The row conditions of spec/opcode_table.json. -/
def Instr.WellFormed : Instr → Bool
  | .decimgBc1 _ _ _ => true
  | .decimgBc3 _ _ _ => true
  | .decimgOther f _ _ _ => f.unrecognised
  | .encfile _ _ _ => true
  | .convert _ _ _ _ => true
  | .validate => true
  | .grid => true
  | .stride => true
  | .imgInit => true
  | .blkNext => true
  | .blkFetch => true
  | .dispatch => true
  | .pixStore => true
  | .bc1DecPal4 c0 c1 _ => decide (c1.toNat < c0.toNat)
  | .bc1DecPal3t c0 c1 _ => decide (c0.toNat ≤ c1.toNat)
  | .bc3DecAramp8 a0 a1 _ _ _ _ => decide (a1.toNat < a0.toNat)
  | .bc3DecAramp6 a0 a1 _ _ _ _ => decide (a0.toNat ≤ a1.toNat)
  | .unpack565 _ => true
  | .exp5 _ => true
  | .exp6 _ => true
  | .endpt _ => true
  | .bc1Parse _ => true
  | .cmp16 => true
  | .palBase => true
  | .pal4 => true
  | .pal3t => true
  | .idx2 _ => true
  | .bc3Parse _ => true
  | .cmp8 => true
  | .aramp8 => true
  | .aramp6 => true
  | .idx3 _ => true
  | .bc3Color => true
  | .be32 _ => true
  | .crc32Init => true
  | .crc32Upd _ => true
  | .crc32Fin => true
  | .crc32 _ => true
  | .chunk _ data => decide (data.length < 2 ^ 32)
  | .encValidate => true
  | .sig => true
  | .ihdr => true
  | .scan => true
  | .compress => true
  | .idat => true
  | .iend => true

end Sys2Proof
end

