-- ==== Sys2Proof/Decode.lean ====
section
/-! DEFINITION. Decoding of the encodings the spec gives: the command record (format CMD), the two compressed
block formats (B64, B128), the chunk frame (CHK) and the file (FILE); and the encoder. Total, refusing by name.
The sequencer steps and the primitives have no encoding in the spec (opcode_table.json: "no encoding of its own");
`encode` answers none for them (log 18). -/

namespace Sys2Proof

open Machine

/-- Why a byte string is no encoding. -/
inductive DecodeError where
  /-- A block that is not 8 (BC1) or 16 (BC3) bytes long (30_encoding.md R91). -/
  | blockLength
  /-- A block under an unrecognised format code (30_encoding.md R82). -/
  | formatNotRecognised
  /-- A chunk frame of fewer than 12 bytes (30_encoding.md R92). -/
  | frameShort
  /-- A chunk frame whose length field is not its number of data bytes (30_encoding.md R92). -/
  | frameLength
  /-- A chunk frame whose checksum field is not the checksum of tag and data (30_encoding.md R92). -/
  | frameChecksum
deriving DecidableEq, Repr

/-- A code: what the machine, or a reader of its output, decodes (30_encoding.md R80). -/
inductive Code where
  | cmd (r : CommandRecord)
  | b64 (bytes : List Byte)
  | b128 (bytes : List Byte)
  | chk (bytes : List Byte)
deriving DecidableEq, Repr

/-- Command dispatch on `OP` and `FMT` (30_encoding.md R81, R82). Every record is a command. -/
def decodeCommand (r : CommandRecord) : Instr :=
  match r.op with
  | .encfile => .encfile r.w r.h r.blen
  | .decimg =>
    match r.fmt with
    | .bc1 => .decimgBc1 r.w r.h r.plen
    | .bc3 => .decimgBc3 r.w r.h r.plen
    | .other n => .decimgOther (.other n) r.w r.h r.plen

/-- A BC1 block: its fields tile the 64 bits, the mode is chosen by `C0 > C1` (30_encoding.md R83, R88). -/
def decodeWord64 (b : BitVec 64) : Instr :=
  if mode4Of (b64C0 b) (b64C1 b) then .bc1DecPal4 (b64C0 b) (b64C1 b) (b64Idx b)
  else .bc1DecPal3t (b64C0 b) (b64C1 b) (b64Idx b)

/-- A BC3 block: its fields tile the 128 bits, the ramp is chosen by `A0 > A1` (30_encoding.md R86, R88). -/
def decodeWord128 (b : BitVec 128) : Instr :=
  if amode8Of (b128A0 b) (b128A1 b) then
    .bc3DecAramp8 (b128A0 b) (b128A1 b) (b128Abits b) (b128C0 b) (b128C1 b) (b128Idx b)
  else .bc3DecAramp6 (b128A0 b) (b128A1 b) (b128Abits b) (b128C0 b) (b128C1 b) (b128Idx b)

/-- Format B64: every one of the 2^64 patterns is legal (30_encoding.md R89). -/
def decodeB64 (bs : List Byte) : Except DecodeError Instr :=
  if bs.length = 8 then .ok (decodeWord64 (le64 bs)) else .error .blockLength

/-- Format B128: every one of the 2^128 patterns is legal (30_encoding.md R89). -/
def decodeB128 (bs : List Byte) : Except DecodeError Instr :=
  if bs.length = 16 then .ok (decodeWord128 (le128 bs)) else .error .blockLength

/-- The block decoder the format code selects; the length of a block is decided by the format code,
never by its bits (30_encoding.md R80, R91). -/
def decodeBlock (f : FormatCode) (bs : List Byte) : Except DecodeError Instr :=
  match f with
  | .bc1 => decodeB64 bs
  | .bc3 => decodeB128 bs
  | .other _ => .error .formatNotRecognised

/-- Format CHK, as a reader of the output takes a frame apart (30_encoding.md R92). -/
def decodeChk (bs : List Byte) : Except DecodeError Instr :=
  match bs with
  | l0 :: l1 :: l2 :: l3 :: t0 :: t1 :: t2 :: t3 :: rest =>
    if rest.length < 4 then .error .frameShort
    else if rest.length = beNat [l0, l1, l2, l3] + 4 then
      if rest.drop (beNat [l0, l1, l2, l3]) =
          be32 (crc32Of ([t0, t1, t2, t3] ++ rest.take (beNat [l0, l1, l2, l3]))) then
        .ok (.chunk ⟨t0, t1, t2, t3⟩ (rest.take (beNat [l0, l1, l2, l3])))
      else .error .frameChecksum
    else .error .frameLength
  | _ => .error .frameShort

/-- The decoder of every format. -/
def decode : Code → Except DecodeError Instr
  | .cmd r => .ok (decodeCommand r)
  | .b64 bs => decodeB64 bs
  | .b128 bs => decodeB128 bs
  | .chk bs => decodeChk bs

/-- The encoding of an operation, where the spec gives it one. A field of the record that a command ignores
(30_encoding.md R81) is filled with 0, and `FMT` of `ENCFILE` with `other 0` (log 18). -/
def encode : Instr → Option Code
  | .decimgBc1 w h plen => some (.cmd ⟨.decimg, .bc1, w, h, plen, 0⟩)
  | .decimgBc3 w h plen => some (.cmd ⟨.decimg, .bc3, w, h, plen, 0⟩)
  | .decimgOther f w h plen => some (.cmd ⟨.decimg, f, w, h, plen, 0⟩)
  | .encfile w h blen => some (.cmd ⟨.encfile, .other 0, w, h, 0, blen⟩)
  | .convert _ _ _ _ => none
  | .validate => none
  | .grid => none
  | .stride => none
  | .imgInit => none
  | .blkNext => none
  | .blkFetch => none
  | .dispatch => none
  | .pixStore => none
  | .bc1DecPal4 c0 c1 idx => some (.b64 (leBytes 8 (b64Of c0 c1 idx).toNat))
  | .bc1DecPal3t c0 c1 idx => some (.b64 (leBytes 8 (b64Of c0 c1 idx).toNat))
  | .bc3DecAramp8 a0 a1 abits c0 c1 idx => some (.b128 (leBytes 16 (b128Of a0 a1 abits c0 c1 idx).toNat))
  | .bc3DecAramp6 a0 a1 abits c0 c1 idx => some (.b128 (leBytes 16 (b128Of a0 a1 abits c0 c1 idx).toNat))
  | .unpack565 _ => none
  | .exp5 _ => none
  | .exp6 _ => none
  | .endpt _ => none
  | .bc1Parse _ => none
  | .cmp16 => none
  | .palBase => none
  | .pal4 => none
  | .pal3t => none
  | .idx2 _ => none
  | .bc3Parse _ => none
  | .cmp8 => none
  | .aramp8 => none
  | .aramp6 => none
  | .idx3 _ => none
  | .bc3Color => none
  | .be32 _ => none
  | .crc32Init => none
  | .crc32Upd _ => none
  | .crc32Fin => none
  | .crc32 _ => none
  | .chunk tag data => some (.chk (chunkFrame tag data))
  | .encValidate => none
  | .sig => none
  | .ihdr => none
  | .scan => none
  | .compress => none
  | .idat => none
  | .iend => none

/-- The two decoded parts of an output file that carry information: the header's width and height, and the
pixel-data chunk's data. -/
structure FileParts where
  w : Nat
  h : Nat
  z : List Byte
deriving DecidableEq, Repr

/-- Format FILE, as a reader takes an output file apart: 8 signature bytes, a 25-byte header chunk, one pixel-data
chunk, a 12-byte terminator chunk, nothing else (30_encoding.md R94, R95). Every chunk's length and checksum are
checked by `decodeChk`. -/
def decodeFile (bs : List Byte) : Option FileParts :=
  if bs.take 8 = [0x89, 0x50, 0x4E, 0x47, 0x0D, 0x0A, 0x1A, 0x0A] then
    match decodeChk ((bs.drop 8).take 25), decodeChk ((bs.drop 33).take (bs.length - 45)),
        decodeChk (bs.drop (bs.length - 12)) with
    | .ok (.chunk t1 d1), .ok (.chunk t2 d2), .ok (.chunk t3 d3) =>
      if t1 = Tag.ihdr ∧ d1.drop 8 = [8, 6, 0, 0, 0] ∧ t2 = Tag.idat ∧ t3 = Tag.iend ∧ d3 = [] then
        some ⟨beNat (d1.take 4), beNat ((d1.drop 4).take 4), d2⟩
      else none
    | _, _, _ => none
  else none

/-- The rows of a scanline stream without their filter-type bytes: the first byte of each record of
`rowBytes + 1` bytes is dropped (45_file_encoder.md R209). -/
def dropFilterBytes (rowBytes : Nat) : Nat → List Byte → List Byte
  | 0, _ => []
  | rows + 1, bs => (bs.drop 1).take rowBytes ++ dropFilterBytes rowBytes rows (bs.drop (rowBytes + 1))

/-- The instruction the decoder reads from a table word: 64 bits are a BC1 block, 128 bits a BC3 block, bit 0
the least significant bit of the first byte; the other rows have no bits in the spec (log 18). -/
def decodeTableWord (nbits w : Nat) : Option Instr :=
  if nbits = 64 then (decodeB64 (leBytes 8 w)).toOption
  else if nbits = 128 then (decodeB128 (leBytes 16 w)).toOption
  else none

end Sys2Proof
end

