-- ==== Sys2Proof/Machine/State.lean ====
section
/-! DEFINITION. The state of the BCU: every register, flag, register file and memory that 10_state.md names, as
plain data, and its value at reset (10_state.md R35). -/

namespace Sys2Proof.Machine

/-- `STATUS.code`: the outcome of the last command (10_state.md R22, 60_exceptions.md R220). -/
inductive Status where
  | ok
  | unsupportedFormat
  | invalidDimensions
  | bufferSizeMismatch
deriving DecidableEq, Repr

/-- The encoder phase, the program counter of `ENCFILE` (10_state.md R24). -/
inductive Phase where
  | sig
  | ihdr
  | scan
  | compress
  | idat
  | iend
  | done
deriving DecidableEq, Repr

/-- A byte space: the sequence of `size` bytes whose nonzero bytes are listed, addresses strictly rising
(20_memory.md R50). An address below `size` that is not listed holds 0; an address from `size` on does not exist. -/
structure Memory where
  size  : Nat
  cells : List Host.Cell
deriving DecidableEq, Repr

/-- Where the engine stands (10_state.md R20; 43_assembler.md R168; 45_file_encoder.md R207; log 1). -/
inductive Position where
  /-- No command in progress. -/
  | idle
  /-- The host has started the command whose record is in the operand registers. -/
  | command
  /-- The block in `blk` is the next to be decoded and run. -/
  | block
  /-- The operation `i` is next. -/
  | op (i : Instr)
deriving DecidableEq, Repr

/-- The value of a primitive's "out" operand that the spec gives no register (log 14). -/
inductive Result where
  | none
  /-- `(r5, g6, b5)` of `UNPACK565`. -/
  | fields (r5 : BitVec 5) (g6 : BitVec 6) (b5 : BitVec 5)
  /-- An 8-bit channel of `EXP5`, `EXP6`. -/
  | channel (v : Byte)
  /-- The three channels of `ENDPT`. -/
  | color (c : Rgb)
  /-- A 2-bit selector of `IDX2`. -/
  | selector2 (v : BitVec 2)
  /-- A 3-bit selector of `IDX3`. -/
  | selector3 (v : BitVec 3)
  /-- The 4 bytes of `BE32`. -/
  | bytes (bs : List Byte)
  /-- The 32 bits of `CRC32.FIN`, `CRC32`. -/
  | word (v : Word)
deriving DecidableEq, Repr

/-- The state of the machine. -/
structure State where
  -- operand registers (10_state.md R21)
  op     : Op
  fmt    : FormatCode
  w      : Half
  h      : Half
  plen   : Nat
  blen   : Nat
  -- status register (10_state.md R22)
  status : Status
  -- sequencer position (10_state.md R23, R24)
  br     : BitVec 15
  bc     : BitVec 15
  bprow  : BitVec 15
  bpcol  : BitVec 15
  stride : BitVec 5
  phase  : Phase
  row    : Half
  -- block working registers (10_state.md R25, R26)
  c0     : Half
  c1     : Half
  idx    : Word
  a0     : Byte
  a1     : Byte
  abits  : BitVec 48
  e0     : Rgb
  e1     : Rgb
  -- flags (10_state.md R27)
  mode4  : Bool
  amode8 : Bool
  -- register files (10_state.md R28 to R30)
  pal    : Vector Pixel 4
  ramp   : Vector Byte 8
  patch  : Vector Pixel 16
  -- checksum accumulator and chunk registers (10_state.md R31)
  crc    : Word
  tag    : Tag
  dlen   : Word
  -- memories (10_state.md R32)
  pay    : Memory
  img    : Memory
  scan   : Memory
  z      : Memory
  out    : Memory
  -- the model's own fields (logs 1, 14, 15)
  pos    : Position
  blk    : Option (List Byte)
  res    : Result
  -- the configuration, no state of the spec: the parameters that the step takes (10_state.md R33; logs 8, 10, 11, 28)
  config : Config.Parameters
deriving DecidableEq, Repr

/-- The reasons a step stops with a fault. The machine itself has no access fault (20_memory.md R60): its own errors
are next states with `STATUS` written. -/
inductive Fault where
  /-- A block fetch at offsets below `PLEN` that `PAY` does not have: raised by `BLKFETCH` and the commands that run
  it, only when the host broke its duty that `PLEN` counts the bytes of `PAY` (70_reset_and_hazards.md R252). Safe. -/
  | outsidePay
  /-- An access to offsets that `IMG` does not have: raised by `PIXSTORE` before `IMG.INIT` has sized `IMG`, and by
  `SCAN` and `ENCFILE` when the host broke its duty that `BLEN` is the length of the buffer in `IMG`
  (70_reset_and_hazards.md R253). Safe. -/
  | outsideImg
deriving DecidableEq, Repr

/-- The reasons a step is refused. -/
inductive Refusal where
  /-- An instruction without a meaning in this model. Raised by no arm of this model. Safe. -/
  | notModelled (mnemonic : String)
  /-- `ENCFILE` or `ENC.VALIDATE` with `W = 0` or `H = 0` whose `BLEN` passes the check: the spec gives it no meaning
  (60_exceptions.md R239(b)). Safe. -/
  | zeroDimensionEncode
  /-- `CHUNK`, `IDAT` or a command that frames a chunk, with more than `CHUNK_MAX` data bytes: the spec gives it no
  meaning (44_crc_frame.md R187; log 11). Safe. -/
  | chunkTooLong
  /-- `STRIDE` or `DISPATCH` with an unrecognised `FMT`, which `VALIDATE` excludes: rules R162 and R166 of
  43_assembler.md cover the two recognised codes only (log 24). Safe. -/
  | formatNotRecognised
  /-- `DISPATCH` of a fetched block whose length is not that of the format, which `BLKFETCH` excludes once `STRIDE` is
  set (43_assembler.md R166, 30_encoding.md R91; log 24). Safe. -/
  | blockLength
  /-- The bytes at the engine's position are no block: raised by the step. Safe. -/
  | undecodable (e : DecodeError)
deriving DecidableEq, Repr

/-- The machine after reset: idle, `SCAN`, `Z`, `OUT` empty (10_state.md R35, 70_reset_and_hazards.md R250). The spec
leaves the rest unspecified: the values here are the model's (logs 2, 3, 4, 14, 15). The configuration is the one of
00_scope.md R7's defaults and of the rules as written (logs 8, 10, 11, 28). -/
def State.reset : State where
  op := .decimg
  fmt := .other 0
  w := 0
  h := 0
  plen := 0
  blen := 0
  status := .ok
  br := 0
  bc := 0
  bprow := 0
  bpcol := 0
  stride := 0
  phase := .sig
  row := 0
  c0 := 0
  c1 := 0
  idx := 0
  a0 := 0
  a1 := 0
  abits := 0
  e0 := ⟨0, 0, 0⟩
  e1 := ⟨0, 0, 0⟩
  mode4 := false
  amode8 := false
  pal := Vector.replicate 4 Pixel.clear
  ramp := Vector.replicate 8 0
  patch := Vector.replicate 16 Pixel.clear
  crc := 0
  tag := ⟨0, 0, 0, 0⟩
  dlen := 0
  pay := ⟨0, []⟩
  img := ⟨0, []⟩
  scan := ⟨0, []⟩
  z := ⟨0, []⟩
  out := ⟨0, []⟩
  pos := .idle
  blk := none
  res := .none
  config := { rampWeights := .asWritten, errOrder := .formatFirst, chunkMax := .lengthField }

end Sys2Proof.Machine
end

