-- ==== Sys2Proof/Machine/Ops.lean ====
section
/-! DEFINITION. Shared operations over the memories and registers: reading and writing a byte space, `Emit`,
presenting a command record, raising an error, completing a command. -/

namespace Sys2Proof.Machine

/-- Run `f` on the state an operation answers; a fault or a refusal stays. -/
def andThen (o : Host.Outcome State Fault Refusal) (f : State → Host.Outcome State Fault Refusal) :
    Host.Outcome State Fault Refusal :=
  match o with
  | .next s => f s
  | .fault r => .fault r
  | .refused r => .refused r

/-! ### Byte spaces (20_memory.md R50, R59, R62) -/

/-- The byte listed for an address; an address that is not listed holds 0. -/
def cellRead : List Host.Cell → Nat → Byte
  | [], _ => 0
  | (k, b) :: cs, a => if a = k then b else cellRead cs a

/-- List a byte for an address, in its place; 0 is not listed. -/
def cellWrite : List Host.Cell → Nat → Byte → List Host.Cell
  | [], a, v => if v = 0 then [] else [(a, v)]
  | (k, b) :: cs, a, v =>
    if a = k then (if v = 0 then cs else (a, v) :: cs)
    else if a < k then (if v = 0 then (k, b) :: cs else (a, v) :: (k, b) :: cs)
    else (k, b) :: cellWrite cs a v

/-- The cells of a byte string that starts at address `a`. -/
def cellsOf (a : Nat) : List Byte → List Host.Cell
  | [] => []
  | v :: vs => if v = 0 then cellsOf (a + 1) vs else (a, v) :: cellsOf (a + 1) vs

/-- Addresses from `lo` on, strictly rising, below `size`, no byte 0. -/
def cellsOk (size : Nat) : Nat → List Host.Cell → Bool
  | _, [] => true
  | lo, (k, b) :: cs => decide (lo ≤ k) && decide (k < size) && decide (b ≠ 0) && cellsOk size (k + 1) cs

/-- The canonical form of a byte space: equal sequences of bytes are equal data. -/
def Memory.wf (m : Memory) : Bool := cellsOk m.size 0 m.cells

/-- The empty space. -/
def Memory.empty : Memory := ⟨0, []⟩

/-- A space of `n` bytes of 0 (43_assembler.md R163). -/
def Memory.zeros (n : Nat) : Memory := ⟨n, []⟩

/-- The space that holds a byte string. -/
def Memory.ofBytes (bs : List Byte) : Memory := ⟨bs.length, cellsOf 0 bs⟩

/-- The byte at an address. -/
def Memory.read (m : Memory) (a : Nat) : Byte := cellRead m.cells a

/-- The whole space as a byte string. -/
def Memory.bytes (m : Memory) : List Byte := (List.range m.size).map m.read

/-- `MemRead(SPACE:a, n)`; none when one of the addresses does not exist (00_scope.md R10). -/
def Memory.readBytes (m : Memory) (a n : Nat) : Option (List Byte) :=
  if a + n ≤ m.size then some ((List.range n).map fun k => m.read (a + k)) else none

/-- Write a byte string from address `a` on. -/
def Memory.writeList (m : Memory) : Nat → List Byte → Memory
  | _, [] => m
  | a, v :: vs => Memory.writeList ⟨m.size, cellWrite m.cells a v⟩ (a + 1) vs

/-- `MemWrite(SPACE:a, n, bs)`; none when one of the addresses does not exist (00_scope.md R10). -/
def Memory.writeBytes (m : Memory) (a : Nat) (bs : List Byte) : Option Memory :=
  if a + bs.length ≤ m.size then some (m.writeList a bs) else none

/-- Append a byte string: nothing is removed, rewritten or reordered (20_memory.md R56). -/
def Memory.append (m : Memory) (bs : List Byte) : Memory :=
  ⟨m.size + bs.length, m.cells ++ cellsOf m.size bs⟩

/-! ### Commands: presenting a record, raising, completing -/

/-- `BLKIDX = BR * BPROW + BC` (10_state.md R23, 43_assembler.md R164). -/
def State.blkIdx (s : State) : Nat := s.br.toNat * s.bprow.toNat + s.bc.toNat

/-- The command record in the operand registers (30_encoding.md R81). -/
def State.record (s : State) : CommandRecord := ⟨s.op, s.fmt, s.w, s.h, s.plen, s.blen⟩

/-- The operands that `DECIMG` reads stand in their registers (30_encoding.md R81). -/
def presentDecimg (f : FormatCode) (w h : Half) (plen : Nat) (s : State) : State :=
  { s with op := .decimg, fmt := f, w := w, h := h, plen := plen }

/-- The operands that `ENCFILE` reads stand in their registers (30_encoding.md R81). -/
def presentEncfile (w h : Half) (blen : Nat) (s : State) : State :=
  { s with op := .encfile, w := w, h := h, blen := blen }

/-- `raise E`: the command ends at once, `STATUS.code <- E`, the engine becomes idle; nothing else is written: no saved
position, no cause register, no vector (60_exceptions.md R227). There is no return operation: the engine is idle and takes
the next command (60_exceptions.md R229). -/
def raise (e : Status) (s : State) : State := { s with status := e, pos := .idle }

/-- Completion of `DECIMG`: `STATUS.code <- OK`, the engine becomes idle (43_assembler.md R170). -/
def completeDecimg (s : State) : State := { s with status := .ok, pos := .idle }

/-- The start of `ENCFILE`: `OUT <- []`, `PHASE <- SIG` (45_file_encoder.md R207, 20_memory.md R56). -/
def beginEncfile (s : State) : State := { s with out := Memory.empty, phase := .sig }

/-- The encoder enters a phase (10_state.md R24). -/
def enterPhase (p : Phase) (s : State) : State := { s with phase := p }

/-- Completion of `ENCFILE`: `PHASE <- DONE`, `STATUS.code <- OK`, idle (45_file_encoder.md R207). DESIGN CHOICE: `SCAN` and
`Z`, which the spec does not say survive the command (10_state.md R34), keep their bytes, as the dead registers do
(log 16). -/
def completeEncfile (s : State) : State := { s with phase := .done, status := .ok, pos := .idle }

/-- `Emit(bs)` (00_scope.md R10, 20_memory.md R56). -/
def emit (bs : List Byte) (s : State) : State := { s with out := s.out.append bs }

/-- The engine stands at `p`. -/
def goTo (p : Position) (s : State) : State := { s with pos := p }

/-- Leave the value of an "out" operand (log 14). -/
def answer (r : Result) (s : State) : State := { s with res := r }

end Sys2Proof.Machine
end

