-- ==== Sys2Proof/Machine/Endpoint.lean ====
section
/-! DEFINITION. Colour endpoint unpack and expansion (40_color_endpoints.md). -/

namespace Sys2Proof.Machine

/-- `EXP5(v) = (v * 255) / 31`: multiply first, then truncating division (40_color_endpoints.md R111). -/
def expand5 (v : BitVec 5) : Byte := BitVec.ofNat 8 (v.toNat * 255 / 31)

/-- `EXP6(v) = (v * 255) / 63` (40_color_endpoints.md R112). -/
def expand6 (v : BitVec 6) : Byte := BitVec.ofNat 8 (v.toNat * 255 / 63)

/-- `ENDPT(c)` (40_color_endpoints.md R113). -/
def endpoint (c : Half) : Rgb := ⟨expand5 (red5 c), expand6 (green6 c), expand5 (blue5 c)⟩

/-- `UNPACK565` (40_color_endpoints.md R110). -/
def execUnpack565 (c : Half) (s : State) : Host.Outcome State Fault Refusal :=
  .next (answer (.fields (red5 c) (green6 c) (blue5 c)) s)

/-- `EXP5` (40_color_endpoints.md R111). -/
def execExp5 (v : BitVec 5) (s : State) : Host.Outcome State Fault Refusal :=
  .next (answer (.channel (expand5 v)) s)

/-- `EXP6` (40_color_endpoints.md R112). -/
def execExp6 (v : BitVec 6) (s : State) : Host.Outcome State Fault Refusal :=
  .next (answer (.channel (expand6 v)) s)

/-- `ENDPT` on an operand; inside a block operation `PAL.BASE` writes `E0`, `E1` (40_color_endpoints.md R113). -/
def execEndpt (c : Half) (s : State) : Host.Outcome State Fault Refusal :=
  .next (answer (.color (endpoint c)) s)

end Sys2Proof.Machine
end

