-- ==== Sys2Proof/Machine/Bc1.lean ====
section
/-! DEFINITION. The BC1 block decoder (41_bc1.md). -/

namespace Sys2Proof.Machine

/-- `(2*a + b) / 3`, the sum exact, the division truncating (41_bc1.md R123). -/
def mixThird (a b : Byte) : Byte := BitVec.ofNat 8 ((2 * a.toNat + b.toNat) / 3)

/-- `(a + b) / 2`, the sum exact, the division truncating (41_bc1.md R124). -/
def mixHalf (a b : Byte) : Byte := BitVec.ofNat 8 ((a.toNat + b.toNat) / 2)

/-- A formula applied to the three channels, each independently of the others (41_bc1.md R129). -/
def Rgb.mix (f : Byte → Byte → Byte) (x y : Rgb) : Rgb := ⟨f x.r y.r, f x.g y.g, f x.b y.b⟩

/-- `C0`, `C1`, `IDX` of a block (10_state.md R25). -/
def loadColor (c0 c1 : Half) (idx : Word) (s : State) : State := { s with c0 := c0, c1 := c1, idx := idx }

/-- `BC1.PARSE` (41_bc1.md R120). -/
def bc1Parse (b : BitVec 64) (s : State) : State := loadColor (b64C0 b) (b64C1 b) (b64Idx b) s

/-- `CMP16` (41_bc1.md R121). -/
def cmp16 (s : State) : State := { s with mode4 := mode4Of s.c0 s.c1 }

/-- `PAL.BASE` (41_bc1.md R122). -/
def palBase (s : State) : State :=
  { s with
    e0 := endpoint s.c0
    e1 := endpoint s.c1
    pal := (s.pal.set 0 (endpoint s.c0).solid).set 1 (endpoint s.c1).solid }

/-- `PAL4` (41_bc1.md R123). -/
def pal4 (s : State) : State :=
  { s with
    pal := (s.pal.set 2 (Rgb.mix mixThird s.e0 s.e1).solid).set 3 (Rgb.mix mixThird s.e1 s.e0).solid }

/-- `PAL3T` (41_bc1.md R124). -/
def pal3t (s : State) : State :=
  { s with pal := (s.pal.set 2 (Rgb.mix mixHalf s.e0 s.e1).solid).set 3 Pixel.clear }

/-- The pixel loop of `BC1.DEC`: `PATCH[p] <- PAL[IDX2(IDX, p)]` (41_bc1.md R126). -/
def bc1Pixels (s : State) : State :=
  { s with patch := Vector.ofFn fun p : Fin 16 => s.pal.get (selector2 s.idx p.val).toFin }

/-- `BC1.DEC` on a block, mode chosen by `MODE4` (41_bc1.md R126). -/
def bc1Dec (b : BitVec 64) (s : State) : State :=
  let t := cmp16 (palBase (bc1Parse b s))
  bc1Pixels (if t.mode4 then pal4 t else pal3t t)

/-- `BC1.DEC` in four-colour mode, `C0 > C1` (41_bc1.md R126, R123). -/
def execBc1DecPal4 (c0 c1 : Half) (idx : Word) (s : State) : Host.Outcome State Fault Refusal :=
  .next (bc1Pixels (pal4 (cmp16 (palBase (loadColor c0 c1 idx s)))))

/-- `BC1.DEC` in three-colour-plus-transparent mode, `C0 <= C1` (41_bc1.md R126, R124). -/
def execBc1DecPal3t (c0 c1 : Half) (idx : Word) (s : State) : Host.Outcome State Fault Refusal :=
  .next (bc1Pixels (pal3t (cmp16 (palBase (loadColor c0 c1 idx s)))))

/-- `BC1.PARSE` (41_bc1.md R120). -/
def execBc1Parse (b : BitVec 64) (s : State) : Host.Outcome State Fault Refusal := .next (bc1Parse b s)

/-- `CMP16` (41_bc1.md R121). -/
def execCmp16 (s : State) : Host.Outcome State Fault Refusal := .next (cmp16 s)

/-- `PAL.BASE` (41_bc1.md R122). -/
def execPalBase (s : State) : Host.Outcome State Fault Refusal := .next (palBase s)

/-- `PAL4` (41_bc1.md R123). -/
def execPal4 (s : State) : Host.Outcome State Fault Refusal := .next (pal4 s)

/-- `PAL3T` (41_bc1.md R124). -/
def execPal3t (s : State) : Host.Outcome State Fault Refusal := .next (pal3t s)

/-- `IDX2` on the register `IDX` (41_bc1.md R125). -/
def execIdx2 (p : BitVec 4) (s : State) : Host.Outcome State Fault Refusal :=
  .next (answer (.selector2 (selector2 s.idx p.toNat)) s)

end Sys2Proof.Machine
end

