-- ==== Sys2Proof/Machine/Bc3.lean ====
section
/-! DEFINITION. The BC3 block decoder (42_bc3.md). -/

namespace Sys2Proof.Machine

/-- The weight pair `(of A0, of A1)` of ramp entry `i` over the divisor `d`: `(d-i, i)` as written,
`(d+1-i, i-1)` shifted (42_bc3.md R142, R143, R147). -/
def rampPair (k : Config.RampWeights) (d i : Nat) : Nat × Nat :=
  match k with
  | .asWritten => (d - i, i)
  | .shifted => (d + 1 - i, i - 1)

/-- An interpolated ramp entry: exact sum, truncating division (42_bc3.md R142, R143). -/
def rampMix (k : Config.RampWeights) (d i : Nat) (a0 a1 : Byte) : Byte :=
  BitVec.ofNat 8 (((rampPair k d i).1 * a0.toNat + (rampPair k d i).2 * a1.toNat) / d)

/-- The entries of the 8-value ramp (42_bc3.md R142). -/
def ramp8 (k : Config.RampWeights) (a0 a1 : Byte) : Vector Byte 8 :=
  #v[a0, a1, rampMix k 7 2 a0 a1, rampMix k 7 3 a0 a1, rampMix k 7 4 a0 a1, rampMix k 7 5 a0 a1,
    rampMix k 7 6 a0 a1, rampMix k 7 7 a0 a1]

/-- The entries of the 6-value ramp with the constants 0 and 255 (42_bc3.md R143). -/
def ramp6 (k : Config.RampWeights) (a0 a1 : Byte) : Vector Byte 8 :=
  #v[a0, a1, rampMix k 5 2 a0 a1, rampMix k 5 3 a0 a1, rampMix k 5 4 a0 a1, rampMix k 5 5 a0 a1, 0, 255]

/-- `A0`, `A1`, `ABITS` of a block (10_state.md R25). -/
def loadAlpha (a0 a1 : Byte) (abits : BitVec 48) (s : State) : State :=
  { s with a0 := a0, a1 := a1, abits := abits }

/-- `BC3.PARSE` (42_bc3.md R140). -/
def bc3Parse (b : BitVec 128) (s : State) : State :=
  loadColor (b128C0 b) (b128C1 b) (b128Idx b) (loadAlpha (b128A0 b) (b128A1 b) (b128Abits b) s)

/-- `CMP8` (42_bc3.md R141). -/
def cmp8 (s : State) : State := { s with amode8 := amode8Of s.a0 s.a1 }

/-- `ARAMP8` under the `RAMP_WEIGHTS` of the configuration (42_bc3.md R142, R147). -/
def aramp8 (s : State) : State := { s with ramp := ramp8 s.config.rampWeights s.a0 s.a1 }

/-- `ARAMP6` under the `RAMP_WEIGHTS` of the configuration (42_bc3.md R143, R147). -/
def aramp6 (s : State) : State := { s with ramp := ramp6 s.config.rampWeights s.a0 s.a1 }

/-- `BC3.COLOR`: `PAL.BASE`, then `PAL4` unconditionally; `MODE4` is not written (42_bc3.md R145). -/
def bc3Color (s : State) : State := pal4 (palBase s)

/-- A palette entry's colour with a ramp entry's alpha (42_bc3.md R146). -/
def Pixel.withAlpha (q : Pixel) (a : Byte) : Pixel := ⟨q.r, q.g, q.b, a⟩

/-- The pixel loop of `BC3.DEC` (42_bc3.md R146). -/
def bc3Pixels (s : State) : State :=
  { s with
    patch := Vector.ofFn fun p : Fin 16 =>
      Pixel.withAlpha (s.pal.get (selector2 s.idx p.val).toFin) (s.ramp.get (selector3 s.abits p.val).toFin) }

/-- `BC3.DEC` on a block, ramp chosen by `AMODE8` (42_bc3.md R146). -/
def bc3Dec (b : BitVec 128) (s : State) : State :=
  let t := cmp8 (bc3Parse b s)
  bc3Pixels (bc3Color (if t.amode8 then aramp8 t else aramp6 t))

/-- `BC3.DEC` with the 8-value ramp, `A0 > A1` (42_bc3.md R146, R142). -/
def execBc3DecAramp8 (a0 a1 : Byte) (abits : BitVec 48) (c0 c1 : Half) (idx : Word) (s : State) :
    Host.Outcome State Fault Refusal :=
  .next (bc3Pixels (bc3Color (aramp8 (cmp8 (loadColor c0 c1 idx (loadAlpha a0 a1 abits s))))))

/-- `BC3.DEC` with the 6-value ramp, `A0 <= A1` (42_bc3.md R146, R143). -/
def execBc3DecAramp6 (a0 a1 : Byte) (abits : BitVec 48) (c0 c1 : Half) (idx : Word) (s : State) :
    Host.Outcome State Fault Refusal :=
  .next (bc3Pixels (bc3Color (aramp6 (cmp8 (loadColor c0 c1 idx (loadAlpha a0 a1 abits s))))))

/-- `BC3.PARSE` (42_bc3.md R140). -/
def execBc3Parse (b : BitVec 128) (s : State) : Host.Outcome State Fault Refusal := .next (bc3Parse b s)

/-- `CMP8` (42_bc3.md R141). -/
def execCmp8 (s : State) : Host.Outcome State Fault Refusal := .next (cmp8 s)

/-- `ARAMP8` (42_bc3.md R142). -/
def execAramp8 (s : State) : Host.Outcome State Fault Refusal := .next (aramp8 s)

/-- `ARAMP6` (42_bc3.md R143). -/
def execAramp6 (s : State) : Host.Outcome State Fault Refusal := .next (aramp6 s)

/-- `IDX3` on the register `ABITS` (42_bc3.md R144). -/
def execIdx3 (p : BitVec 4) (s : State) : Host.Outcome State Fault Refusal :=
  .next (answer (.selector3 (selector3 s.abits p.toNat)) s)

/-- `BC3.COLOR` (42_bc3.md R145). -/
def execBc3Color (s : State) : Host.Outcome State Fault Refusal := .next (bc3Color s)

end Sys2Proof.Machine
end

