-- ==== Sys2Proof/Machine/Assembler.lean ====
section
/-! DEFINITION. The image assembler and block sequencer (43_assembler.md). -/

namespace Sys2Proof.Machine

/-- The error of a `DECIMG` whose format code is unrecognised and which has a zero dimension: the format under
`ERR_ORDER = format_first`, a free choice of the two under `either` (60_exceptions.md R226; log 10). -/
def bothFaults (o : Config.ErrOrder) (f : FormatCode) (w h : Half) : Status :=
  match o with
  | .formatFirst => .unsupportedFormat
  | .either => if Config.reportsFormat f w h then .unsupportedFormat else .invalidDimensions

/-- What `VALIDATE` raises under an `ERR_ORDER`, if anything (43_assembler.md R160). -/
def validateError (o : Config.ErrOrder) (f : FormatCode) (w h : Half) : Option Status :=
  if w = 0 ∨ h = 0 then
    (if f.unrecognised then some (bothFaults o f w h) else some .invalidDimensions)
  else (if f.unrecognised then some .unsupportedFormat else none)

/-- `ceil(n/4)` (43_assembler.md R161). -/
def ceilQuarter (n : Half) : BitVec 15 := BitVec.ofNat 15 ((n.toNat + 3) / 4)

/-- `GRID` (43_assembler.md R161). -/
def grid (s : State) : State := { s with bprow := ceilQuarter s.w, bpcol := ceilQuarter s.h }

/-- `STRIDE` selection (43_assembler.md R162). -/
def stride (s : State) : Host.Outcome State Fault Refusal :=
  match s.fmt with
  | .bc1 => .next { s with stride := 8 }
  | .bc3 => .next { s with stride := 16 }
  | .other _ => .refused .formatNotRecognised

/-- `IMG.INIT`: `IMG` is `W*H*4` bytes of 0 (43_assembler.md R163, 20_memory.md R53). -/
def imgInit (s : State) : State := { s with img := Memory.zeros (s.w.toNat * s.h.toNat * 4) }

/-- The start of the block loop: `BLK <- (0, 0)` (43_assembler.md R164). -/
def startBlocks (s : State) : State := { s with br := 0, bc := 0 }

/-- `BLKNEXT`: the raster successor, or completion after the last block (43_assembler.md R164, R170). -/
def blkNext (s : State) : State :=
  if s.bc.toNat + 1 < s.bprow.toNat then { s with bc := s.bc + 1 }
  else if s.br.toNat + 1 < s.bpcol.toNat then { s with br := s.br + 1, bc := 0 }
  else completeDecimg s

/-- `BLKFETCH`: the whole block, or `skip` when its range ends beyond `PLEN` (43_assembler.md R165). -/
def blkFetch (s : State) : Host.Outcome State Fault Refusal :=
  if s.plen < s.blkIdx * s.stride.toNat + s.stride.toNat then .next { s with blk := none }
  else
    match s.pay.readBytes (s.blkIdx * s.stride.toNat) s.stride.toNat with
    | some bs => .next { s with blk := some bs }
    | none => .fault .outsidePay

/-- `DISPATCH`: decode the fetched block with the decoder that `FMT` selects; a skipped block is not decoded
(43_assembler.md R166). -/
def dispatch (s : State) : Host.Outcome State Fault Refusal :=
  match s.blk with
  | none => .next s
  | some bs =>
    match s.fmt with
    | .bc1 => if bs.length = 8 then .next (bc1Dec (le64 bs) s) else .refused .blockLength
    | .bc3 => if bs.length = 16 then .next (bc3Dec (le128 bs) s) else .refused .blockLength
    | .other _ => .refused .formatNotRecognised

/-- The address in `IMG` of pixel `(x, y)` of an image of width `w` (20_memory.md R52). -/
def pixelAddr (w x y : Nat) : Nat := (y * w + x) * 4

/-- Store one patch pixel, or discard it outside the image (43_assembler.md R167). -/
def storePixel (patch : Vector Pixel 16) (br bc w h : Nat) (p : Fin 16) (m : Memory) : Option Memory :=
  if bc * 4 + p.val % 4 < w ∧ br * 4 + p.val / 4 < h then
    m.writeBytes (pixelAddr w (bc * 4 + p.val % 4) (br * 4 + p.val / 4)) (patch.get p).bytes
  else some m

/-- Store the patch pixels of a list in order. -/
def storePixels (patch : Vector Pixel 16) (br bc w h : Nat) : List (Fin 16) → Memory → Option Memory
  | [], m => some m
  | p :: ps, m =>
    match storePixel patch br bc w h p m with
    | some m' => storePixels patch br bc w h ps m'
    | none => none

/-- `PIXSTORE`: the 16 pixels row by row, with edge clipping (43_assembler.md R167). -/
def pixStore (s : State) : Host.Outcome State Fault Refusal :=
  match storePixels s.patch s.br.toNat s.bc.toNat s.w.toNat s.h.toNat (List.finRange 16) s.img with
  | some m => .next { s with img := m }
  | none => .fault .outsideImg

/-- One block of the loop: fetch, then decode and store unless skipped (43_assembler.md R168). -/
def processBlock (s : State) : Host.Outcome State Fault Refusal :=
  andThen (blkFetch s) fun t => if t.blk = none then .next t else andThen (dispatch t) pixStore

/-- The block loop for `n` blocks (43_assembler.md R168). -/
def blockLoop : Nat → State → Host.Outcome State Fault Refusal
  | 0, s => .next s
  | n + 1, s => andThen (processBlock s) fun t => blockLoop n (blkNext t)

/-- `GRID`, `STRIDE`, `IMG.INIT`, `BLK <- (0, 0)` (43_assembler.md R168). -/
def prepareDecimg (s : State) : Host.Outcome State Fault Refusal :=
  andThen (stride (grid s)) fun t => .next (startBlocks (imgInit t))

/-- `DECIMG` on the operands in their registers; it ends after exactly `BPROW * BPCOL` blocks
(43_assembler.md R168, R169, R170). -/
def runDecimg (s : State) : Host.Outcome State Fault Refusal :=
  match validateError s.config.errOrder s.fmt s.w s.h with
  | some e => .next (raise e s)
  | none => andThen (prepareDecimg s) fun t => blockLoop (t.bprow.toNat * t.bpcol.toNat) t

/-- `VALIDATE` (43_assembler.md R160). -/
def execValidate (s : State) : Host.Outcome State Fault Refusal :=
  match validateError s.config.errOrder s.fmt s.w s.h with
  | some e => .next (raise e s)
  | none => .next s

/-- `GRID` (43_assembler.md R161). -/
def execGrid (s : State) : Host.Outcome State Fault Refusal := .next (grid s)

/-- `STRIDE` (43_assembler.md R162). -/
def execStride (s : State) : Host.Outcome State Fault Refusal := stride s

/-- `IMG.INIT` (43_assembler.md R163). -/
def execImgInit (s : State) : Host.Outcome State Fault Refusal := .next (imgInit s)

/-- `BLKNEXT` (43_assembler.md R164). -/
def execBlkNext (s : State) : Host.Outcome State Fault Refusal := .next (blkNext s)

/-- `BLKFETCH` (43_assembler.md R165). -/
def execBlkFetch (s : State) : Host.Outcome State Fault Refusal := blkFetch s

/-- `DISPATCH` (43_assembler.md R166). -/
def execDispatch (s : State) : Host.Outcome State Fault Refusal := dispatch s

/-- `PIXSTORE` (43_assembler.md R167). -/
def execPixStore (s : State) : Host.Outcome State Fault Refusal := pixStore s

/-- `DECIMG.BC1` (43_assembler.md R168). -/
def execDecimgBc1 (w h : Half) (plen : Nat) (s : State) : Host.Outcome State Fault Refusal :=
  runDecimg (presentDecimg .bc1 w h plen s)

/-- `DECIMG.BC3` (43_assembler.md R169). -/
def execDecimgBc3 (w h : Half) (plen : Nat) (s : State) : Host.Outcome State Fault Refusal :=
  runDecimg (presentDecimg .bc3 w h plen s)

/-- `DECIMG` with an unrecognised format code: `VALIDATE` raises (43_assembler.md R160, 60_exceptions.md R221). -/
def execDecimgOther (f : FormatCode) (w h : Half) (plen : Nat) (s : State) : Host.Outcome State Fault Refusal :=
  runDecimg (presentDecimg f w h plen s)

end Sys2Proof.Machine
end

