-- ==== Sys2Proof/Machine/Chunk.lean ====
section
/-! DEFINITION. Checksum primitives and chunk framing as operations of the machine (44_crc_frame.md). -/

namespace Sys2Proof.Machine

/-- `CRC32.INIT` (44_crc_frame.md R181). -/
def crcInit (s : State) : State := { s with crc := crcStart }

/-- `CRC32.UPD` on each byte of a string (44_crc_frame.md R182, R184). -/
def crcUpdAll (bs : List Byte) (s : State) : State := { s with crc := crcAbsorbAll s.crc bs }

/-- `TAG <- tag ; DLEN <- len(data)` (44_crc_frame.md R186). -/
def loadChunk (tag : Tag) (n : Nat) (s : State) : State := { s with tag := tag, dlen := BitVec.ofNat 32 n }

/-- `CHUNK_MAX` as a number (44_crc_frame.md R187). -/
def chunkLimit (k : Config.ChunkMax) : Nat :=
  match k with
  | .lengthField => 2 ^ 32 - 1
  | .standard => 2 ^ 31 - 1

/-- `CHUNK(tag, data)`: length, tag, data, checksum over tag then data; `CRC` starts anew with the tag
(44_crc_frame.md R186). Refused beyond the `CHUNK_MAX` of the configuration (R187). -/
def chunk (tag : Tag) (data : List Byte) (s : State) : Host.Outcome State Fault Refusal :=
  if data.length ≤ chunkLimit s.config.chunkMax then
    let t := loadChunk tag data.length s
    let u := emit data (emit tag.bytes (emit (be32 t.dlen) t))
    let v := crcUpdAll (tag.bytes ++ data) (crcInit u)
    .next (emit (be32 (crcFinish v.crc)) v)
  else .refused .chunkTooLong

/-- `BE32` (44_crc_frame.md R180). -/
def execBe32 (v : Word) (s : State) : Host.Outcome State Fault Refusal := .next (answer (.bytes (be32 v)) s)

/-- `CRC32.INIT` (44_crc_frame.md R181). -/
def execCrc32Init (s : State) : Host.Outcome State Fault Refusal := .next (crcInit s)

/-- `CRC32.UPD` (44_crc_frame.md R182). -/
def execCrc32Upd (x : Byte) (s : State) : Host.Outcome State Fault Refusal :=
  .next { s with crc := crcAbsorb s.crc x }

/-- `CRC32.FIN`: it reads `CRC` (44_crc_frame.md R183). -/
def execCrc32Fin (s : State) : Host.Outcome State Fault Refusal := .next (answer (.word (crcFinish s.crc)) s)

/-- `CRC32`: `CRC32.INIT`, `CRC32.UPD` on each byte, `CRC32.FIN` (44_crc_frame.md R184). -/
def execCrc32 (bs : List Byte) (s : State) : Host.Outcome State Fault Refusal :=
  let t := crcUpdAll bs (crcInit s)
  .next (answer (.word (crcFinish t.crc)) t)

/-- `CHUNK` (44_crc_frame.md R186). -/
def execChunk (tag : Tag) (data : List Byte) (s : State) : Host.Outcome State Fault Refusal := chunk tag data s

end Sys2Proof.Machine
end

