-- ==== Sys2Proof/Machine/Encoder.lean ====
section
/-! DEFINITION. The image file encoder and the whole conversion (45_file_encoder.md). -/

namespace Sys2Proof.Machine

/-- `ENC.VALIDATE` (45_file_encoder.md R200). A zero dimension whose `BLEN` passes the check has no meaning
(60_exceptions.md R239(b); log 12). -/
def encValidate (s : State) : Host.Outcome State Fault Refusal :=
  if s.blen ≠ s.w.toNat * s.h.toNat * 4 then .next (raise .bufferSizeMismatch s)
  else if s.w = 0 ∨ s.h = 0 then .refused .zeroDimensionEncode
  else .next s

/-- The 8 signature bytes (30_encoding.md R94, 45_file_encoder.md R201). -/
def signature : List Byte := [0x89, 0x50, 0x4E, 0x47, 0x0D, 0x0A, 0x1A, 0x0A]

/-- `SIG` (45_file_encoder.md R201). -/
def sig (s : State) : State := emit signature (enterPhase .sig s)

/-- The 13 data bytes of the header chunk (30_encoding.md R95). -/
def headerData (w h : Half) : List Byte :=
  be32 (w.setWidth 32) ++ be32 (h.setWidth 32) ++ [0x08, 0x06, 0x00, 0x00, 0x00]

/-- `IHDR` (45_file_encoder.md R202). -/
def ihdr (s : State) : Host.Outcome State Fault Refusal :=
  chunk Tag.ihdr (headerData s.w s.h) (enterPhase .ihdr s)

/-- One scanline record: the filter-type byte 0 and the row's `W*4` bytes unchanged. `SCAN` then holds exactly the
records of the rows before, so the record's offset `ROW*(1+W*4)` is its end (45_file_encoder.md R203; log 13). -/
def scanRow (r : Nat) (s : State) : Host.Outcome State Fault Refusal :=
  match s.img.readBytes (r * s.w.toNat * 4) (s.w.toNat * 4) with
  | some bs => .next { s with row := BitVec.ofNat 16 r, scan := s.scan.append (0 :: bs) }
  | none => .fault .outsideImg

/-- Rows `r`, `r+1`, …, `n` of them, top to bottom. -/
def scanRows : Nat → Nat → State → Host.Outcome State Fault Refusal
  | 0, _, s => .next s
  | n + 1, r, s => andThen (scanRow r s) (scanRows n (r + 1))

/-- `SCAN` (45_file_encoder.md R203, 20_memory.md R54). -/
def scan (s : State) : Host.Outcome State Fault Refusal :=
  scanRows s.h.toNat 0 { enterPhase .scan s with scan := Memory.empty }

/-- `COMPRESS`: `Z <- COMPRESS(SCAN)` (45_file_encoder.md R204). -/
def compress (s : State) : State :=
  { enterPhase .compress s with z := Memory.ofBytes (Config.compress s.scan.bytes) }

/-- `IDAT`: all of `Z` in one chunk (45_file_encoder.md R205). -/
def idat (s : State) : Host.Outcome State Fault Refusal := chunk Tag.idat s.z.bytes (enterPhase .idat s)

/-- `IEND` (45_file_encoder.md R206). -/
def iend (s : State) : Host.Outcome State Fault Refusal := chunk Tag.iend [] (enterPhase .iend s)

/-- The phases after validation, and completion (45_file_encoder.md R207). -/
def encodePhases (s : State) : Host.Outcome State Fault Refusal :=
  andThen (ihdr (sig s)) fun a =>
  andThen (scan a) fun b =>
  andThen (idat (compress b)) fun c =>
  andThen (iend c) fun d => .next (completeEncfile d)

/-- `ENCFILE` on the operands in their registers. An error ends it with `OUT` empty (45_file_encoder.md R207,
60_exceptions.md R228). -/
def runEncfile (s : State) : Host.Outcome State Fault Refusal :=
  andThen (encValidate (beginEncfile s)) fun t =>
    if s.blen ≠ s.w.toNat * s.h.toNat * 4 then .next t else encodePhases t

/-- `ENC.VALIDATE` (45_file_encoder.md R200). -/
def execEncValidate (s : State) : Host.Outcome State Fault Refusal := encValidate s

/-- `SIG` (45_file_encoder.md R201). -/
def execSig (s : State) : Host.Outcome State Fault Refusal := .next (sig s)

/-- `IHDR` (45_file_encoder.md R202). -/
def execIhdr (s : State) : Host.Outcome State Fault Refusal := ihdr s

/-- `SCAN` (45_file_encoder.md R203). -/
def execScan (s : State) : Host.Outcome State Fault Refusal := scan s

/-- `COMPRESS` (45_file_encoder.md R204). -/
def execCompress (s : State) : Host.Outcome State Fault Refusal := .next (compress s)

/-- `IDAT` (45_file_encoder.md R205). -/
def execIdat (s : State) : Host.Outcome State Fault Refusal := idat s

/-- `IEND` (45_file_encoder.md R206). -/
def execIend (s : State) : Host.Outcome State Fault Refusal := iend s

/-- `ENCFILE` (45_file_encoder.md R207). -/
def execEncfile (w h : Half) (blen : Nat) (s : State) : Host.Outcome State Fault Refusal :=
  runEncfile (presentEncfile w h blen s)

/-- `CONVERT`: `DECIMG`, then, only with `OK`, `ENCFILE` on the same `W`, `H` with `BLEN` the length of `IMG`; an error
of `DECIMG` ends it with `OUT` empty (30_encoding.md R97, 45_file_encoder.md R211; log 22). -/
def execConvert (f : FormatCode) (w h : Half) (plen : Nat) (s : State) : Host.Outcome State Fault Refusal :=
  andThen (runDecimg { presentDecimg f w h plen s with out := Memory.empty }) fun t =>
    if t.status = .ok then runEncfile (presentEncfile w h t.img.size t) else .next t

end Sys2Proof.Machine
end

