-- ==== Sys2Proof/Machine/Dispatch.lean ====
section
/-! DEFINITION. One arm per constructor of Instr (30_encoding.md R98). -/

namespace Sys2Proof.Machine

def exec (i : Instr) (s : State) : Host.Outcome State Fault Refusal :=
  match i with
  | .decimgBc1 w h plen => Sys2Proof.Machine.execDecimgBc1 w h plen s
  | .decimgBc3 w h plen => Sys2Proof.Machine.execDecimgBc3 w h plen s
  | .decimgOther f w h plen => Sys2Proof.Machine.execDecimgOther f w h plen s
  | .encfile w h blen => Sys2Proof.Machine.execEncfile w h blen s
  | .convert f w h plen => Sys2Proof.Machine.execConvert f w h plen s
  | .validate => Sys2Proof.Machine.execValidate s
  | .grid => Sys2Proof.Machine.execGrid s
  | .stride => Sys2Proof.Machine.execStride s
  | .imgInit => Sys2Proof.Machine.execImgInit s
  | .blkNext => Sys2Proof.Machine.execBlkNext s
  | .blkFetch => Sys2Proof.Machine.execBlkFetch s
  | .dispatch => Sys2Proof.Machine.execDispatch s
  | .pixStore => Sys2Proof.Machine.execPixStore s
  | .bc1DecPal4 c0 c1 idx => Sys2Proof.Machine.execBc1DecPal4 c0 c1 idx s
  | .bc1DecPal3t c0 c1 idx => Sys2Proof.Machine.execBc1DecPal3t c0 c1 idx s
  | .bc3DecAramp8 a0 a1 abits c0 c1 idx => Sys2Proof.Machine.execBc3DecAramp8 a0 a1 abits c0 c1 idx s
  | .bc3DecAramp6 a0 a1 abits c0 c1 idx => Sys2Proof.Machine.execBc3DecAramp6 a0 a1 abits c0 c1 idx s
  | .unpack565 c => Sys2Proof.Machine.execUnpack565 c s
  | .exp5 v => Sys2Proof.Machine.execExp5 v s
  | .exp6 v => Sys2Proof.Machine.execExp6 v s
  | .endpt c => Sys2Proof.Machine.execEndpt c s
  | .bc1Parse b => Sys2Proof.Machine.execBc1Parse b s
  | .cmp16 => Sys2Proof.Machine.execCmp16 s
  | .palBase => Sys2Proof.Machine.execPalBase s
  | .pal4 => Sys2Proof.Machine.execPal4 s
  | .pal3t => Sys2Proof.Machine.execPal3t s
  | .idx2 p => Sys2Proof.Machine.execIdx2 p s
  | .bc3Parse b => Sys2Proof.Machine.execBc3Parse b s
  | .cmp8 => Sys2Proof.Machine.execCmp8 s
  | .aramp8 => Sys2Proof.Machine.execAramp8 s
  | .aramp6 => Sys2Proof.Machine.execAramp6 s
  | .idx3 p => Sys2Proof.Machine.execIdx3 p s
  | .bc3Color => Sys2Proof.Machine.execBc3Color s
  | .be32 v => Sys2Proof.Machine.execBe32 v s
  | .crc32Init => Sys2Proof.Machine.execCrc32Init s
  | .crc32Upd x => Sys2Proof.Machine.execCrc32Upd x s
  | .crc32Fin => Sys2Proof.Machine.execCrc32Fin s
  | .crc32 bs => Sys2Proof.Machine.execCrc32 bs s
  | .chunk tag data => Sys2Proof.Machine.execChunk tag data s
  | .encValidate => Sys2Proof.Machine.execEncValidate s
  | .sig => Sys2Proof.Machine.execSig s
  | .ihdr => Sys2Proof.Machine.execIhdr s
  | .scan => Sys2Proof.Machine.execScan s
  | .compress => Sys2Proof.Machine.execCompress s
  | .idat => Sys2Proof.Machine.execIdat s
  | .iend => Sys2Proof.Machine.execIend s

end Sys2Proof.Machine
end

