-- ==== Sys2Proof/Machine/Sequencer.lean ====
section
/-! DEFINITION. What the engine runs next, and where it stands afterwards (43_assembler.md R168, 45_file_encoder.md R207).
A command runs as one step when the engine stands at `Position.command`; from its first operation (70_reset_and_hazards.md
R251) it runs one operation a step (logs 1, 5). -/

namespace Sys2Proof.Machine

/-- What a fetch finds. -/
inductive Fetched where
  | nothing
  | instr (i : Instr)
  | bad (e : DecodeError)
deriving DecidableEq, Repr

/-- The decoder's answer as a fetch. -/
def fetchedOf (r : Except DecodeError Instr) : Fetched :=
  match r with
  | .ok i => .instr i
  | .error e => .bad e

/-- The fetch: idle fetches nothing (70_reset_and_hazards.md R251); a started command is decoded from the operand
registers (30_encoding.md R81); a block is decoded from the fetched bytes under `FMT` (43_assembler.md R166); an operation of
the sequencer is selected by its place in the order (30_encoding.md R98). -/
def fetch (s : State) : Fetched :=
  match s.pos with
  | .idle => .nothing
  | .command => .instr (decodeCommand s.record)
  | .block =>
    match s.blk with
    | some bs => fetchedOf (decodeBlock s.fmt bs)
    | none => .bad .blockLength
  | .op i => .instr i

/-- Where the engine stands after an operation of the sequencer that did not end its command: the order of rules R168
(DECIMG) and R207 (ENCFILE); any other operation stands alone. -/
def successor (i : Instr) (t : State) : State :=
  match i with
  | .validate => goTo (.op .grid) t
  | .grid => goTo (.op .stride) t
  | .stride => goTo (.op .imgInit) t
  | .imgInit => goTo (.op .blkFetch) (startBlocks t)
  | .blkFetch => if t.blk = none then goTo (.op .blkNext) t else goTo .block t
  | .dispatch => goTo (.op .pixStore) t
  | .pixStore => goTo (.op .blkNext) t
  | .blkNext => goTo (.op .blkFetch) t
  | .encValidate => goTo (.op .sig) t
  | .sig => goTo (.op .ihdr) t
  | .ihdr => goTo (.op .scan) t
  | .scan => goTo (.op .compress) t
  | .compress => goTo (.op .idat) t
  | .idat => goTo (.op .iend) t
  | .iend => completeEncfile t
  | .decimgBc1 _ _ _ | .decimgBc3 _ _ _ | .decimgOther _ _ _ _ | .encfile _ _ _ | .convert _ _ _ _
  | .bc1DecPal4 _ _ _ | .bc1DecPal3t _ _ _ | .bc3DecAramp8 _ _ _ _ _ _ | .bc3DecAramp6 _ _ _ _ _ _
  | .unpack565 _ | .exp5 _ | .exp6 _ | .endpt _ | .bc1Parse _ | .cmp16 | .palBase | .pal4 | .pal3t | .idx2 _
  | .bc3Parse _ | .cmp8 | .aramp8 | .aramp6 | .idx3 _ | .bc3Color | .be32 _ | .crc32Init | .crc32Upd _ | .crc32Fin
  | .crc32 _ | .chunk _ _ => goTo .idle t

/-- What the step adds around an operation: `p` is where the engine stood, `t` the state the operation answered. An
operation that ended its command has left the engine idle. -/
def advance (p : Position) (i : Instr) (t : State) : State :=
  match p with
  | .idle => t
  | .command => goTo .idle t
  | .block => goTo (.op .pixStore) t
  | .op _ => if t.pos = .idle then t else successor i t

/-- The engine stands at the first operation of the command in the operand registers (70_reset_and_hazards.md R251):
`VALIDATE`, or `ENC.VALIDATE` after `OUT <- []`, `PHASE <- SIG`. -/
def enterCommand (s : State) : State :=
  match s.op with
  | .decimg => goTo (.op .validate) s
  | .encfile => goTo (.op .encValidate) (beginEncfile s)

/-- A block stands where the engine fetches its next one. -/
def placeBlock (f : FormatCode) (bs : List Byte) (s : State) : State :=
  { s with fmt := f, blk := some bs, pos := .block }

/-- A table word stands where the engine fetches (log 5). -/
def placeWord (nbits w : Nat) (s : State) : State :=
  if nbits = 64 then placeBlock .bc1 (leBytes 8 w) s
  else if nbits = 128 then placeBlock .bc3 (leBytes 16 w) s
  else s

end Sys2Proof.Machine
end

