-- ==== Sys2Proof/Machine/Step.lean ====
section
/-! DEFINITION. One step of the engine. -/

namespace Sys2Proof.Machine

/-- One step: fetch, decode, run, advance. An idle engine does nothing (10_state.md R35). -/
def step (s : State) : Host.Outcome State Fault Refusal :=
  match fetch s with
  | .nothing => .next s
  | .bad e => .refused (.undecodable e)
  | .instr i => andThen (exec i s) fun t => .next (advance s.pos i t)

/-- `s` with the instruction of a table word where the step fetches its next instruction (log 5). -/
def State.withFetchWord (s : State) (nbits w : Nat) : State := placeWord nbits w s

end Sys2Proof.Machine
end

