-- ==== Sys2Proof/Machine/HostMoves.lean ====
section
/-! DEFINITION. The host's moves between commands (70_reset_and_hazards.md R252, R253, R268): writing operands and spaces,
starting a command, and reading what a command left. They are no steps of the engine. A move on a running engine does not
exist (R257, R258, R259): it answers none. -/

namespace Sys2Proof.Machine

/-- A host move: only while no command is in progress (70_reset_and_hazards.md R257, R258). -/
def hostMove (f : State → State) (s : State) : Option State :=
  if s.pos = .idle then some (f s) else none

/-- Place the payload and write `PLEN` with its count (70_reset_and_hazards.md R252). -/
def hostPayload (bs : List Byte) : State → Option State :=
  hostMove fun s => { s with pay := Memory.ofBytes bs, plen := bs.length }

/-- Make `IMG` hold a buffer and write `BLEN` with its length (70_reset_and_hazards.md R253). -/
def hostImage (bs : List Byte) : State → Option State :=
  hostMove fun s => { s with img := Memory.ofBytes bs, blen := bs.length }

/-- Write `FMT`, `W`, `H` (70_reset_and_hazards.md R252). -/
def hostFormat (f : FormatCode) (w h : Half) : State → Option State :=
  hostMove fun s => { s with fmt := f, w := w, h := h }

/-- Write `PLEN` or `BLEN` alone (30_encoding.md R97). -/
def hostLengths (plen blen : Nat) : State → Option State :=
  hostMove fun s => { s with plen := plen, blen := blen }

/-- Start the command `o`, to run as one step (70_reset_and_hazards.md R268). -/
def hostStart (o : Op) : State → Option State :=
  hostMove fun s => { s with op := o, pos := .command }

/-- Start the command `o`, to run one operation a step (70_reset_and_hazards.md R251, R268). -/
def hostStartStepwise (o : Op) : State → Option State :=
  hostMove fun s => enterCommand { s with op := o }

/-- A host read: only while no command is in progress, whatever the outcome of the last one (70_reset_and_hazards.md R259,
R268). -/
def hostRead {α : Type} (f : State → α) (s : State) : Option α :=
  if s.pos = .idle then some (f s) else none

/-- Read `STATUS` (10_state.md R22, 70_reset_and_hazards.md R268). -/
def hostReadStatus : State → Option Status := hostRead State.status

/-- Read `IMG` (70_reset_and_hazards.md R263, R268). -/
def hostReadImg : State → Option (List Byte) := hostRead fun s => s.img.bytes

/-- Read `OUT` (70_reset_and_hazards.md R268). -/
def hostReadOut : State → Option (List Byte) := hostRead fun s => s.out.bytes

/-- A space as a result that the host may use: only after completion and only with `OK`; after an error what the read
gives "must not be taken for a result" (70_reset_and_hazards.md R259, R268, 60_exceptions.md R228). -/
def hostResult (read : State → Option (List Byte)) (s : State) : Option (List Byte) :=
  if s.status = .ok then read s else none

/-- What a `DECIMG` gives back with `OK`: the image (70_reset_and_hazards.md R268). -/
def hostImageResult : State → Option (List Byte) := hostResult hostReadImg

/-- What an `ENCFILE` gives back with `OK`: the file (70_reset_and_hazards.md R268). -/
def hostFileResult : State → Option (List Byte) := hostResult hostReadOut

end Sys2Proof.Machine
end

