-- ==== Sys2Proof/Safety.lean ====
section
/-! DEFINITION. What counts as a good state and a safe run, and the values that claims compare a run with. -/

namespace Sys2Proof.Machine

/-! ### Invariants -/

/-- Every byte space is in its canonical form. -/
def State.Canonical (s : State) : Bool := s.pay.wf && s.img.wf && s.scan.wf && s.z.wf && s.out.wf

/-- A chunk of `n` data bytes is within the `CHUNK_MAX` of the configuration (44_crc_frame.md R187). -/
abbrev State.ChunkFits (s : State) (n : Nat) : Prop := n < 2 ^ 31 ∨ (s.config.chunkMax = .lengthField ∧ n < 2 ^ 32)

/-- The host's duty before `DECIMG`: `PLEN` counts bytes that stand in `PAY` (70_reset_and_hazards.md R252). -/
def State.PayloadPresent (s : State) : Prop := s.plen ≤ s.pay.size

/-- The host's duty before `ENCFILE`: `BLEN` is the length of the buffer in `IMG` (70_reset_and_hazards.md R253). -/
def State.BufferPresent (s : State) : Prop := s.blen = s.img.size

/-- `STRIDE` of a format code (43_assembler.md R162). -/
def strideOf : FormatCode → Nat
  | .bc1 => 8
  | .bc3 => 16
  | .other _ => 0

/-- `VALIDATE` has passed (43_assembler.md R160). -/
def State.Validated (s : State) : Prop := s.fmt.unrecognised = false ∧ s.w ≠ 0 ∧ s.h ≠ 0

/-- `GRID` has run (43_assembler.md R161). -/
def State.Gridded (s : State) : Prop := s.bprow = ceilQuarter s.w ∧ s.bpcol = ceilQuarter s.h

/-- Inside the block loop: `BLK` lies in the grid and `IMG` has its size (10_state.md R23, 43_assembler.md R168). -/
structure State.InLoop (s : State) : Prop where
  validated : s.Validated
  gridded : s.Gridded
  strided : s.stride.toNat = strideOf s.fmt
  sized : s.img.size = s.w.toNat * s.h.toNat * 4
  payload : s.PayloadPresent
  row : s.br.toNat < s.bpcol.toNat
  col : s.bc.toNat < s.bprow.toNat

/-- `ENC.VALIDATE` has passed on a buffer that is present (45_file_encoder.md R200). -/
structure State.InEncode (s : State) : Prop where
  width : s.w ≠ 0
  height : s.h ≠ 0
  length : s.blen = s.w.toNat * s.h.toNat * 4
  buffer : s.BufferPresent

/-- What holds where the engine stands, in a command started with the host's duties met. -/
def State.Coherent (s : State) : Prop :=
  match s.pos with
  | .idle => True
  | .command =>
    match s.op with
    | .decimg => s.PayloadPresent
    | .encfile => s.BufferPresent
  | .block => s.InLoop ∧ ∃ bs, s.blk = some bs ∧ bs.length = strideOf s.fmt
  | .op i =>
    match i with
    | .validate => s.PayloadPresent
    | .grid => s.Validated ∧ s.PayloadPresent
    | .stride => s.Validated ∧ s.PayloadPresent ∧ s.Gridded
    | .imgInit => s.Validated ∧ s.PayloadPresent ∧ s.Gridded ∧ s.stride.toNat = strideOf s.fmt
    | .blkFetch => s.InLoop
    | .dispatch => s.InLoop ∧ ∀ bs, s.blk = some bs → bs.length = strideOf s.fmt
    | .pixStore => s.InLoop
    | .blkNext => s.InLoop
    | .encValidate => s.BufferPresent
    | .sig => s.InEncode
    | .ihdr => s.InEncode
    | .scan => s.InEncode
    | .compress => s.InEncode
    | .idat => s.InEncode
    | .iend => s.InEncode
    | .decimgBc1 _ _ plen => plen ≤ s.pay.size
    | .decimgBc3 _ _ plen => plen ≤ s.pay.size
    | .decimgOther _ _ _ plen => plen ≤ s.pay.size
    | .convert _ _ _ plen => plen ≤ s.pay.size
    | .encfile _ _ blen => blen = s.img.size
    | .bc1DecPal4 _ _ _ | .bc1DecPal3t _ _ _ | .bc3DecAramp8 _ _ _ _ _ _ | .bc3DecAramp6 _ _ _ _ _ _
    | .unpack565 _ | .exp5 _ | .exp6 _ | .endpt _ | .bc1Parse _ | .cmp16 | .palBase | .pal4 | .pal3t | .idx2 _
    | .bc3Parse _ | .cmp8 | .aramp8 | .aramp6 | .idx3 _ | .bc3Color | .be32 _ | .crc32Init | .crc32Upd _
    | .crc32Fin | .crc32 _ | .chunk _ _ => True

/-- A step of a safe run does not end in a model fault (20_memory.md R60). -/
def FaultFree (o : Host.Outcome State Fault Refusal) : Prop := ∀ r, o ≠ .fault r

/-! ### What a command computes, said without running it -/

/-- The pixel at column `x`, row `y` of the image that `DECIMG` makes of the payload bytes `pay` under the configuration
`c`: the pixel of the block `BLKIDX = (y/4)*BPROW + x/4` if that block's range ends within `plen`, else transparent black
(43_assembler.md R164, R165, R167). -/
def imagePixel (c : Config.Parameters) (f : FormatCode) (w plen : Nat) (pay : Nat → Byte) (x y : Nat) : Pixel :=
  let k := (y / 4) * ((w + 3) / 4) + x / 4
  let bytes := (List.range (strideOf f)).map fun j => pay (k * strideOf f + j)
  if k * strideOf f + strideOf f ≤ plen then
    match f with
    | .bc1 => (bc1Dec (le64 bytes) { State.reset with config := c }).patch.get (Fin.ofNat 16 (y % 4 * 4 + x % 4))
    | .bc3 => (bc3Dec (le128 bytes) { State.reset with config := c }).patch.get (Fin.ofNat 16 (y % 4 * 4 + x % 4))
    | .other _ => Pixel.clear
  else Pixel.clear

/-- The scanline stream: for each row a filter-type byte 0, then the row's bytes unchanged
(45_file_encoder.md R203). -/
def scanlines (rowBytes : Nat) : Nat → List Byte → List Byte
  | 0, _ => []
  | rows + 1, bs => 0 :: bs.take rowBytes ++ scanlines rowBytes rows (bs.drop rowBytes)

/-- The output file around the compressed bytes `z` (45_file_encoder.md R207, 30_encoding.md R94). -/
def fileBytes (w h : Half) (z : List Byte) : List Byte :=
  signature ++ chunkFrame Tag.ihdr (headerData w h) ++ chunkFrame Tag.idat z ++ chunkFrame Tag.iend []

end Sys2Proof.Machine
end

