-- ==== Sys2Proof/Certificates/Slice0/Obligations.lean ====
section
/-! DEFINITION. The statements about the model, one `Obligations.<Name>` each, from the numbered rules of spec/. -/

open Sys2Proof Sys2Proof.Machine

/-! ### Decoding, encoding and the step -/

/-- 30_encoding.md R83, R86, R88: words written out from the block formats decode to the block operations they stand
for. -/
def Obligations.BlockWordsDecode : Prop :=
  decodeB64 [0x00, 0xF8, 0x1F, 0x00, 0xE4, 0xE4, 0xE4, 0xE4] = .ok (.bc1DecPal4 0xF800 0x001F 0xE4E4E4E4) ∧
  decodeB64 [0x1F, 0x00, 0x00, 0xF8, 0xE4, 0xE4, 0xE4, 0xE4] = .ok (.bc1DecPal3t 0x001F 0xF800 0xE4E4E4E4) ∧
  decodeB128 [0xFF, 0x00, 0x88, 0xC6, 0xFA, 0x77, 0x39, 0x05, 0x00, 0xF8, 0x1F, 0x00, 0xE4, 0xE4, 0xE4, 0xE4] =
    .ok (.bc3DecAramp8 0xFF 0x00 0x053977FAC688 0xF800 0x001F 0xE4E4E4E4) ∧
  decodeB128 [0x0A, 0xC8, 0x88, 0xC6, 0xFA, 0x88, 0xC6, 0xFA, 0x1F, 0x00, 0x00, 0xF8, 0xE4, 0xE4, 0xE4, 0xE4] =
    .ok (.bc3DecAramp6 0x0A 0xC8 0xFAC688FAC688 0x001F 0xF800 0xE4E4E4E4)

/-- Decoding undoes encoding, for every well-formed operation that the spec gives an encoding (30_encoding.md R80 to
R92): the command records, the two block formats, the chunk frame. The formats are the spec's; how an ignored field of a
record is filled, and that a frame is read back at all, are the model's (logs 18, 23). -/
def Obligations.DecodeUndoesEncode : Prop :=
  ∀ (i : Instr) (c : Code), i.WellFormed = true → encode i = some c → decode c = .ok i

/-- 30_encoding.md R89: every pattern of a block is legal and has exactly one decoding, no bit ignored, and no block raises an
error: every 8-byte (16-byte) string decodes, to a well-formed operation that only that string encodes, and that runs in
every state without touching `STATUS`. -/
def Obligations.EveryBlockPatternIsLegal : Prop :=
  (∀ bs : List Byte, bs.length = 8 →
    ∃ i, decodeB64 bs = .ok i ∧ i.WellFormed = true ∧ encode i = some (.b64 bs) ∧
      ∀ s, ∃ t, exec i s = .next t ∧ t.status = s.status ∧ t.pos = s.pos) ∧
  (∀ bs : List Byte, bs.length = 16 →
    ∃ i, decodeB128 bs = .ok i ∧ i.WellFormed = true ∧ encode i = some (.b128 bs) ∧
      ∀ s, ∃ t, exec i s = .next t ∧ t.status = s.status ∧ t.pos = s.pos)

/-- The step runs the decoded instruction: a block under the engine's position is decoded and run and the engine goes on
to the pixel store; a started command is decoded from the operand registers, run whole, and leaves the engine idle; an
operation of the sequencer is run, and the engine moves on in the order of rules R168 and R207 unless it ended its command;
an idle engine does nothing. How the position is held is the model's (log 1). -/
def Obligations.StepRunsTheDecodedInstruction : Prop :=
  (∀ s bs i t, s.pos = .block → s.blk = some bs → decodeBlock s.fmt bs = .ok i → exec i s = .next t →
    step s = .next { t with pos := .op .pixStore }) ∧
  (∀ s t, s.pos = .command → exec (decodeCommand s.record) s = .next t → step s = .next { t with pos := .idle }) ∧
  (∀ s i t, s.pos = .op i → exec i s = .next t →
    step s = .next (if t.pos = .idle then t else successor i t)) ∧
  (∀ s, s.pos = .idle → step s = .next s)

/-- 70_reset_and_hazards.md R250, 10_state.md R35: reset leaves the engine idle and `SCAN`, `Z`, `OUT` empty. The clause
that every space is in canonical form is about the model's representation (log 6), the clause `Coherent` about the
engine's position as the model writes it (log 1). -/
def Obligations.ResetIsIdleWithEmptyStreams : Prop :=
  State.reset.pos = .idle ∧ State.reset.scan.bytes = [] ∧ State.reset.z.bytes = [] ∧ State.reset.out.bytes = [] ∧
    State.reset.Canonical = true ∧ State.reset.Coherent

/-! ### Colour endpoints -/

/-- 40_color_endpoints.md R111, R112, R114: `EXP5` and `EXP6` answer the unique `q` with `q*d <= v*255 < (q+1)*d`,
`d` being 31 or 63, and change nothing else. -/
def Obligations.ExpansionIsTheTruncatedQuotient : Prop :=
  (∀ (v : BitVec 5) (s : State), ∃ q : Byte, exec (.exp5 v) s = .next { s with res := .channel q } ∧
    q.toNat * 31 ≤ v.toNat * 255 ∧ v.toNat * 255 < (q.toNat + 1) * 31) ∧
  (∀ (v : BitVec 6) (s : State), ∃ q : Byte, exec (.exp6 v) s = .next { s with res := .channel q } ∧
    q.toNat * 63 ≤ v.toNat * 255 ∧ v.toNat * 255 < (q.toNat + 1) * 63)

/-- 40_color_endpoints.md R110: `UNPACK565` answers the three fields, red at the top, which together are all of `c`. -/
def Obligations.UnpackSplitsTheEndpoint : Prop :=
  ∀ (c : Half) (s : State), ∃ (r5 : BitVec 5) (g6 : BitVec 6) (b5 : BitVec 5),
    exec (.unpack565 c) s = .next { s with res := .fields r5 g6 b5 } ∧
    c.toNat = r5.toNat * 2 ^ 11 + g6.toNat * 2 ^ 5 + b5.toNat

/-- 40_color_endpoints.md R113: `ENDPT` answers the expansion of each field. -/
def Obligations.EndpointExpandsEachField : Prop :=
  ∀ (c : Half) (s : State), ∃ x : Rgb, exec (.endpt c) s = .next { s with res := .color x } ∧
    x.r.toNat = c.toNat / 2048 * 255 / 31 ∧ x.g.toNat = c.toNat / 32 % 64 * 255 / 63 ∧
    x.b.toNat = c.toNat % 32 * 255 / 31

/-- 40_color_endpoints.md R113: `c < c'` exactly when `ENDPT(c) < ENDPT(c')` in lexicographic order of the channels, so
`ENDPT` is injective. -/
def Obligations.EndpointOrderIsTheRawOrder : Prop :=
  ∀ (c c' : Half) (s t t' : State) (x x' : Rgb), exec (.endpt c) s = .next t → exec (.endpt c') s = .next t' →
    t.res = .color x → t'.res = .color x' →
    ((c.toNat < c'.toNat ↔
      (x.r.toNat < x'.r.toNat ∨ (x.r = x'.r ∧ (x.g.toNat < x'.g.toNat ∨ (x.g = x'.g ∧ x.b.toNat < x'.b.toNat))))) ∧
     (x = x' → c = c'))

/-! ### BC1 -/

/-- 41_bc1.md R120: `BC1.PARSE` reads the three little-endian fields of the 8 bytes and writes nothing else. -/
def Obligations.Bc1ParseReadsThreeFields : Prop :=
  ∀ (b0 b1 b2 b3 b4 b5 b6 b7 : Byte) (s : State), ∃ (c0 c1 : Half) (idx : Word),
    exec (.bc1Parse (le64 [b0, b1, b2, b3, b4, b5, b6, b7])) s = .next { s with c0 := c0, c1 := c1, idx := idx } ∧
    c0.toNat = b0.toNat + b1.toNat * 256 ∧ c1.toNat = b2.toNat + b3.toNat * 256 ∧
    idx.toNat = b4.toNat + b5.toNat * 2 ^ 8 + b6.toNat * 2 ^ 16 + b7.toNat * 2 ^ 24

/-- 41_bc1.md R121, 42_bc3.md R141: `CMP16` and `CMP8` compare as unsigned integers, set their flag and nothing else. -/
def Obligations.ComparisonsSetTheirFlag : Prop :=
  (∀ s : State, ∃ m : Bool, exec .cmp16 s = .next { s with mode4 := m } ∧ (m = true ↔ s.c1.toNat < s.c0.toNat)) ∧
  (∀ s : State, ∃ m : Bool, exec .cmp8 s = .next { s with amode8 := m } ∧ (m = true ↔ s.a1.toNat < s.a0.toNat))

/-- 41_bc1.md R122: `PAL.BASE` writes `E0`, `E1` with the expansions of `C0`, `C1`, and the first two palette entries with
the same colours, opaque; the other two entries and everything else stay. -/
def Obligations.PaletteBaseHoldsTheEndpoints : Prop :=
  ∀ s : State, ∃ (x y : Rgb) (p : Vector Pixel 4),
    exec .palBase s = .next { s with e0 := x, e1 := y, pal := p } ∧
    x.r.toNat = s.c0.toNat / 2048 * 255 / 31 ∧ x.g.toNat = s.c0.toNat / 32 % 64 * 255 / 63 ∧
    x.b.toNat = s.c0.toNat % 32 * 255 / 31 ∧
    y.r.toNat = s.c1.toNat / 2048 * 255 / 31 ∧ y.g.toNat = s.c1.toNat / 32 % 64 * 255 / 63 ∧
    y.b.toNat = s.c1.toNat % 32 * 255 / 31 ∧
    p.get 0 = ⟨x.r, x.g, x.b, 255⟩ ∧ p.get 1 = ⟨y.r, y.g, y.b, 255⟩ ∧ p.get 2 = s.pal.get 2 ∧ p.get 3 = s.pal.get 3

/-- 41_bc1.md R123: `PAL4` writes the one-third and two-thirds interpolants of each channel, truncated, opaque, into
entries 2 and 3, and nothing else. -/
def Obligations.Palette4InterpolatesByThirds : Prop :=
  ∀ s : State, ∃ p : Vector Pixel 4, exec .pal4 s = .next { s with pal := p } ∧
    p.get 0 = s.pal.get 0 ∧ p.get 1 = s.pal.get 1 ∧
    (p.get 2).r.toNat = (2 * s.e0.r.toNat + s.e1.r.toNat) / 3 ∧
    (p.get 2).g.toNat = (2 * s.e0.g.toNat + s.e1.g.toNat) / 3 ∧
    (p.get 2).b.toNat = (2 * s.e0.b.toNat + s.e1.b.toNat) / 3 ∧ (p.get 2).a = 255 ∧
    (p.get 3).r.toNat = (s.e0.r.toNat + 2 * s.e1.r.toNat) / 3 ∧
    (p.get 3).g.toNat = (s.e0.g.toNat + 2 * s.e1.g.toNat) / 3 ∧
    (p.get 3).b.toNat = (s.e0.b.toNat + 2 * s.e1.b.toNat) / 3 ∧ (p.get 3).a = 255

/-- 41_bc1.md R124: `PAL3T` writes the truncated average, opaque, into entry 2 and `(0,0,0,0)` into entry 3, and nothing
else. -/
def Obligations.Palette3TAveragesAndClears : Prop :=
  ∀ s : State, ∃ p : Vector Pixel 4, exec .pal3t s = .next { s with pal := p } ∧
    p.get 0 = s.pal.get 0 ∧ p.get 1 = s.pal.get 1 ∧
    (p.get 2).r.toNat = (s.e0.r.toNat + s.e1.r.toNat) / 2 ∧
    (p.get 2).g.toNat = (s.e0.g.toNat + s.e1.g.toNat) / 2 ∧
    (p.get 2).b.toNat = (s.e0.b.toNat + s.e1.b.toNat) / 2 ∧ (p.get 2).a = 255 ∧
    p.get 3 = ⟨0, 0, 0, 0⟩

/-- 41_bc1.md R125, 42_bc3.md R144: `IDX2` answers the 2-bit field of `IDX` at bit `2p`, `IDX3` the 3-bit field of `ABITS`
at bit `3p`; nothing else changes. -/
def Obligations.SelectorsAreFieldsOfTheIndexWords : Prop :=
  (∀ (p : BitVec 4) (s : State), ∃ v : BitVec 2, exec (.idx2 p) s = .next { s with res := .selector2 v } ∧
    v.toNat = s.idx.toNat / 2 ^ (2 * p.toNat) % 4) ∧
  (∀ (p : BitVec 4) (s : State), ∃ v : BitVec 3, exec (.idx3 p) s = .next { s with res := .selector3 v } ∧
    v.toNat = s.abits.toNat / 2 ^ (3 * p.toNat) % 8)

/-- 41_bc1.md R126 in four-colour mode (`C0 > C1`): the operation completes; pixel `p` of `PATCH` is the palette entry its
selector names; the palette is that of rules R122 and R123; only the working registers of BC1.DEC change. -/
def Obligations.Bc1DecodeInFourColourMode : Prop :=
  ∀ (c0 c1 : Half) (idx : Word) (s : State), c1.toNat < c0.toNat →
    ∃ (x y : Rgb) (p : Vector Pixel 4) (patch : Vector Pixel 16),
      exec (.bc1DecPal4 c0 c1 idx) s = .next
        { s with c0 := c0, c1 := c1, idx := idx, e0 := x, e1 := y, mode4 := true, pal := p, patch := patch } ∧
      x.r.toNat = c0.toNat / 2048 * 255 / 31 ∧ x.g.toNat = c0.toNat / 32 % 64 * 255 / 63 ∧
      x.b.toNat = c0.toNat % 32 * 255 / 31 ∧
      y.r.toNat = c1.toNat / 2048 * 255 / 31 ∧ y.g.toNat = c1.toNat / 32 % 64 * 255 / 63 ∧
      y.b.toNat = c1.toNat % 32 * 255 / 31 ∧
      p.get 0 = ⟨x.r, x.g, x.b, 255⟩ ∧ p.get 1 = ⟨y.r, y.g, y.b, 255⟩ ∧
      (p.get 2).r.toNat = (2 * x.r.toNat + y.r.toNat) / 3 ∧ (p.get 2).g.toNat = (2 * x.g.toNat + y.g.toNat) / 3 ∧
      (p.get 2).b.toNat = (2 * x.b.toNat + y.b.toNat) / 3 ∧ (p.get 2).a = 255 ∧
      (p.get 3).r.toNat = (x.r.toNat + 2 * y.r.toNat) / 3 ∧ (p.get 3).g.toNat = (x.g.toNat + 2 * y.g.toNat) / 3 ∧
      (p.get 3).b.toNat = (x.b.toNat + 2 * y.b.toNat) / 3 ∧ (p.get 3).a = 255 ∧
      ∀ q : Fin 16, patch.get q = p.get (Fin.ofNat 4 (idx.toNat / 2 ^ (2 * q.val)))

/-- 41_bc1.md R126 in three-colour-plus-transparent mode (`C0 <= C1`), the palette of rules R122 and R124. -/
def Obligations.Bc1DecodeInThreeColourMode : Prop :=
  ∀ (c0 c1 : Half) (idx : Word) (s : State), c0.toNat ≤ c1.toNat →
    ∃ (x y : Rgb) (p : Vector Pixel 4) (patch : Vector Pixel 16),
      exec (.bc1DecPal3t c0 c1 idx) s = .next
        { s with c0 := c0, c1 := c1, idx := idx, e0 := x, e1 := y, mode4 := false, pal := p, patch := patch } ∧
      x.r.toNat = c0.toNat / 2048 * 255 / 31 ∧ x.g.toNat = c0.toNat / 32 % 64 * 255 / 63 ∧
      x.b.toNat = c0.toNat % 32 * 255 / 31 ∧
      y.r.toNat = c1.toNat / 2048 * 255 / 31 ∧ y.g.toNat = c1.toNat / 32 % 64 * 255 / 63 ∧
      y.b.toNat = c1.toNat % 32 * 255 / 31 ∧
      p.get 0 = ⟨x.r, x.g, x.b, 255⟩ ∧ p.get 1 = ⟨y.r, y.g, y.b, 255⟩ ∧
      (p.get 2).r.toNat = (x.r.toNat + y.r.toNat) / 2 ∧ (p.get 2).g.toNat = (x.g.toNat + y.g.toNat) / 2 ∧
      (p.get 2).b.toNat = (x.b.toNat + y.b.toNat) / 2 ∧ (p.get 2).a = 255 ∧ p.get 3 = ⟨0, 0, 0, 0⟩ ∧
      ∀ q : Fin 16, patch.get q = p.get (Fin.ofNat 4 (idx.toNat / 2 ^ (2 * q.val)))

/-- 41_bc1.md R127: (a) a block with `c0 == c1` has a fully transparent palette entry 3 and, in entry 2, the plain average
of the two endpoints, which is the endpoint; (b) with all selectors 0 it yields 16 identical opaque pixels equal to the
8-bit expansion of the endpoint. The block is run as its bytes decode. -/
def Obligations.SolidBc1Block : Prop :=
  ∀ (b0 b1 b4 b5 b6 b7 : Byte) (s : State), ∃ (i : Instr) (t : State),
    decodeB64 [b0, b1, b0, b1, b4, b5, b6, b7] = .ok i ∧ exec i s = .next t ∧
    t.pal.get 3 = ⟨0, 0, 0, 0⟩ ∧ t.pal.get 2 = t.pal.get 0 ∧ t.pal.get 2 = t.pal.get 1 ∧
    (b4 = 0 → b5 = 0 → b6 = 0 → b7 = 0 → ∀ q : Fin 16,
      (t.patch.get q).r.toNat = (b0.toNat + 256 * b1.toNat) / 2048 * 255 / 31 ∧
      (t.patch.get q).g.toNat = (b0.toNat + 256 * b1.toNat) / 32 % 64 * 255 / 63 ∧
      (t.patch.get q).b.toNat = (b0.toNat + 256 * b1.toNat) % 32 * 255 / 31 ∧ (t.patch.get q).a = 255)

/-! ### BC3 -/

/-- 42_bc3.md R140: `BC3.PARSE` reads the six little-endian fields of the 16 bytes and writes nothing else. -/
def Obligations.Bc3ParseReadsSixFields : Prop :=
  ∀ (b0 b1 b2 b3 b4 b5 b6 b7 b8 b9 b10 b11 b12 b13 b14 b15 : Byte) (s : State),
    ∃ (ab : BitVec 48) (c0 c1 : Half) (idx : Word),
    exec (.bc3Parse (le128 [b0, b1, b2, b3, b4, b5, b6, b7, b8, b9, b10, b11, b12, b13, b14, b15])) s =
      .next { s with a0 := b0, a1 := b1, abits := ab, c0 := c0, c1 := c1, idx := idx } ∧
    ab.toNat = b2.toNat + b3.toNat * 2 ^ 8 + b4.toNat * 2 ^ 16 + b5.toNat * 2 ^ 24 + b6.toNat * 2 ^ 32 +
      b7.toNat * 2 ^ 40 ∧
    c0.toNat = b8.toNat + b9.toNat * 256 ∧ c1.toNat = b10.toNat + b11.toNat * 256 ∧
    idx.toNat = b12.toNat + b13.toNat * 2 ^ 8 + b14.toNat * 2 ^ 16 + b15.toNat * 2 ^ 24

/-- 42_bc3.md R142, on a machine with `RAMP_WEIGHTS = as_written` (90_conflicts.md C1): `ARAMP8` writes `RAMP` and
nothing else. -/
def Obligations.Ramp8IsAsWritten : Prop :=
  ∀ s : State, s.config.rampWeights = .asWritten → ∃ r : Vector Byte 8, exec .aramp8 s = .next { s with ramp := r } ∧
    r.get 0 = s.a0 ∧ r.get 1 = s.a1 ∧
    ∀ i : Fin 8, 2 ≤ i.val → (r.get i).toNat = ((7 - i.val) * s.a0.toNat + i.val * s.a1.toNat) / 7

/-- 42_bc3.md R143, on a machine with `RAMP_WEIGHTS = as_written` (90_conflicts.md C1): `ARAMP6` writes `RAMP` and
nothing else. -/
def Obligations.Ramp6IsAsWritten : Prop :=
  ∀ s : State, s.config.rampWeights = .asWritten → ∃ r : Vector Byte 8, exec .aramp6 s = .next { s with ramp := r } ∧
    r.get 0 = s.a0 ∧ r.get 1 = s.a1 ∧
    (∀ i : Fin 8, 2 ≤ i.val → i.val ≤ 5 → (r.get i).toNat = ((5 - i.val) * s.a0.toNat + i.val * s.a1.toNat) / 5) ∧
    r.get 6 = 0 ∧ r.get 7 = 255

/-- 42_bc3.md R147: on a machine with `RAMP_WEIGHTS = shifted` the ramps that `ARAMP8` and `ARAMP6` write have the weights
`(8-i, i-1)` over 7 and `(6-i, i-1)` over 5, and nothing else differs. -/
def Obligations.ShiftedRampsHaveTheShiftedWeights : Prop :=
  ∀ s : State, s.config.rampWeights = .shifted →
    (∃ r : Vector Byte 8, exec .aramp8 s = .next { s with ramp := r } ∧ r.get 0 = s.a0 ∧ r.get 1 = s.a1 ∧
      ∀ i : Fin 8, 2 ≤ i.val → (r.get i).toNat = ((8 - i.val) * s.a0.toNat + (i.val - 1) * s.a1.toNat) / 7) ∧
    (∃ r : Vector Byte 8, exec .aramp6 s = .next { s with ramp := r } ∧ r.get 0 = s.a0 ∧ r.get 1 = s.a1 ∧
      (∀ i : Fin 8, 2 ≤ i.val → i.val ≤ 5 →
        (r.get i).toNat = ((6 - i.val) * s.a0.toNat + (i.val - 1) * s.a1.toNat) / 5) ∧
      r.get 6 = 0 ∧ r.get 7 = 255)

/-- 41_bc1.md R129, 42_bc3.md R148: each interpolated palette channel lies between the two channels it interpolates,
inclusive; each interpolated ramp entry lies between `A0` and `A1`, inclusive, under either reading of the weights. -/
def Obligations.InterpolantsLieBetweenTheirEndpoints : Prop :=
  (∀ (s t u : State) (f : Pixel → Byte) (g : Rgb → Byte),
    (f, g) ∈ [(Pixel.r, Rgb.r), (Pixel.g, Rgb.g), (Pixel.b, Rgb.b)] →
    exec .pal4 s = .next t → exec .pal3t s = .next u →
    ∀ v ∈ [f (t.pal.get 2), f (t.pal.get 3), f (u.pal.get 2)],
      min (g s.e0).toNat (g s.e1).toNat ≤ v.toNat ∧ v.toNat ≤ max (g s.e0).toNat (g s.e1).toNat) ∧
  (∀ (k : Config.RampWeights) (a0 a1 : Byte) (i : Fin 8), 2 ≤ i.val →
    (min a0.toNat a1.toNat ≤ ((ramp8 k a0 a1).get i).toNat ∧ ((ramp8 k a0 a1).get i).toNat ≤ max a0.toNat a1.toNat) ∧
    (i.val ≤ 5 →
      min a0.toNat a1.toNat ≤ ((ramp6 k a0 a1).get i).toNat ∧ ((ramp6 k a0 a1).get i).toNat ≤ max a0.toNat a1.toNat))

/-- 42_bc3.md R145: `BC3.COLOR` writes `E0`, `E1` and the whole palette by the four-colour rule whatever the order of `C0`
and `C1`; `MODE4` and everything else stay. -/
def Obligations.Bc3ColourIsAlwaysFourColour : Prop :=
  ∀ s : State, ∃ (x y : Rgb) (p : Vector Pixel 4),
    exec .bc3Color s = .next { s with e0 := x, e1 := y, pal := p } ∧
    x.r.toNat = s.c0.toNat / 2048 * 255 / 31 ∧ x.g.toNat = s.c0.toNat / 32 % 64 * 255 / 63 ∧
    x.b.toNat = s.c0.toNat % 32 * 255 / 31 ∧
    y.r.toNat = s.c1.toNat / 2048 * 255 / 31 ∧ y.g.toNat = s.c1.toNat / 32 % 64 * 255 / 63 ∧
    y.b.toNat = s.c1.toNat % 32 * 255 / 31 ∧
    p.get 0 = ⟨x.r, x.g, x.b, 255⟩ ∧ p.get 1 = ⟨y.r, y.g, y.b, 255⟩ ∧
    (p.get 2).r.toNat = (2 * x.r.toNat + y.r.toNat) / 3 ∧ (p.get 2).g.toNat = (2 * x.g.toNat + y.g.toNat) / 3 ∧
    (p.get 2).b.toNat = (2 * x.b.toNat + y.b.toNat) / 3 ∧ (p.get 2).a = 255 ∧
    (p.get 3).r.toNat = (x.r.toNat + 2 * y.r.toNat) / 3 ∧ (p.get 3).g.toNat = (x.g.toNat + 2 * y.g.toNat) / 3 ∧
    (p.get 3).b.toNat = (x.b.toNat + 2 * y.b.toNat) / 3 ∧ (p.get 3).a = 255

/-- 42_bc3.md R146: both forms of `BC3.DEC` complete; a pixel has the colour of the palette entry its colour selector
names, never its alpha, and the alpha of the ramp entry its alpha selector names; palette and ramp are those of
`BC3.COLOR` and of `ARAMP8` (`A0 > A1`) or `ARAMP6` (`A0 <= A1`) on the parsed fields; only the working registers of
BC3.DEC change, and `MODE4` does not. -/
def Obligations.Bc3DecodeJoinsColourAndAlpha : Prop :=
  ∀ (a0 a1 : Byte) (ab : BitVec 48) (c0 c1 : Half) (idx : Word) (s : State),
    ∃ (x y : Rgb) (p : Vector Pixel 4) (r : Vector Byte 8) (patch : Vector Pixel 16) (i : Instr),
      (i = if a1.toNat < a0.toNat then .bc3DecAramp8 a0 a1 ab c0 c1 idx else .bc3DecAramp6 a0 a1 ab c0 c1 idx) ∧
      exec i s = .next
        { s with a0 := a0, a1 := a1, abits := ab, c0 := c0, c1 := c1, idx := idx, e0 := x, e1 := y,
                 amode8 := decide (a1.toNat < a0.toNat), pal := p, ramp := r, patch := patch } ∧
      exec .bc3Color { s with c0 := c0, c1 := c1 } =
        .next { s with c0 := c0, c1 := c1, e0 := x, e1 := y, pal := p } ∧
      exec (if a1.toNat < a0.toNat then .aramp8 else .aramp6) { s with a0 := a0, a1 := a1 } =
        .next { s with a0 := a0, a1 := a1, ramp := r } ∧
      ∀ q : Fin 16,
        (patch.get q).r = (p.get (Fin.ofNat 4 (idx.toNat / 2 ^ (2 * q.val)))).r ∧
        (patch.get q).g = (p.get (Fin.ofNat 4 (idx.toNat / 2 ^ (2 * q.val)))).g ∧
        (patch.get q).b = (p.get (Fin.ofNat 4 (idx.toNat / 2 ^ (2 * q.val)))).b ∧
        (patch.get q).a = r.get (Fin.ofNat 8 (ab.toNat / 2 ^ (3 * q.val)))

/-- 41_bc1.md R128, 42_bc3.md R149: block operations on equal bytes give equal patches, from any two states, a BC3 block
under one value of `RAMP_WEIGHTS`, and touch no memory: every decoded block runs to a next state. -/
def Obligations.BlockDecodersDependOnlyOnTheirBytes : Prop :=
  ∀ (f : FormatCode) (bs : List Byte) (i : Instr) (s s' : State), decodeBlock f bs = .ok i →
    (f = .bc3 → s.config.rampWeights = s'.config.rampWeights) →
    ∃ t t', exec i s = .next t ∧ exec i s' = .next t' ∧ t.patch = t'.patch ∧
      t.pay = s.pay ∧ t.img = s.img ∧ t.scan = s.scan ∧ t.z = s.z ∧ t.out = s.out ∧ t.status = s.status

/-! ### The image assembler -/

/-- 43_assembler.md R160, 60_exceptions.md R226, R227: `VALIDATE` goes on when the format is recognised and neither
dimension is zero; otherwise it raises: `STATUS` and the engine's condition change, nothing else. With both faults it reports
the format under `ERR_ORDER = format_first`, and one of the two under `either`. -/
def Obligations.ValidateRaisesOrGoesOn : Prop :=
  ∀ s : State,
    (s.fmt.unrecognised = false → s.w ≠ 0 → s.h ≠ 0 → exec .validate s = .next s) ∧
    (s.fmt.unrecognised = true → s.w ≠ 0 → s.h ≠ 0 →
      exec .validate s = .next { s with status := .unsupportedFormat, pos := .idle }) ∧
    (s.fmt.unrecognised = false → (s.w = 0 ∨ s.h = 0) →
      exec .validate s = .next { s with status := .invalidDimensions, pos := .idle }) ∧
    (s.fmt.unrecognised = true → (s.w = 0 ∨ s.h = 0) →
      ∃ e, exec .validate s = .next { s with status := e, pos := .idle } ∧
        match s.config.errOrder with
        | .formatFirst => e = .unsupportedFormat
        | .either => e = .unsupportedFormat ∨ e = .invalidDimensions)

/-- 60_exceptions.md R221, R222, R227, R228: a `DECIMG` with an unrecognised format code ends with `UnsupportedFormat`, one
of a recognised format with a zero dimension with `InvalidDimensions`, one with both faults with one of the two (the format
under `ERR_ORDER = format_first`); each without touching `IMG` or anything but its operand registers, `STATUS` and the
engine's condition. -/
def Obligations.InvalidImageOperandsAreReported : Prop :=
  (∀ (n : Nat) (w h : Half) (plen : Nat) (s : State), ∃ e, exec (.decimgOther (.other n) w h plen) s = .next
      { s with op := .decimg, fmt := .other n, w := w, h := h, plen := plen, status := e, pos := .idle } ∧
    (w ≠ 0 → h ≠ 0 → e = .unsupportedFormat) ∧ (s.config.errOrder = .formatFirst → e = .unsupportedFormat) ∧
    (e = .unsupportedFormat ∨ e = .invalidDimensions)) ∧
  (∀ (w h : Half) (plen : Nat) (s : State), (w = 0 ∨ h = 0) →
    exec (.decimgBc1 w h plen) s = .next
      { s with op := .decimg, fmt := .bc1, w := w, h := h, plen := plen, status := .invalidDimensions, pos := .idle } ∧
    exec (.decimgBc3 w h plen) s = .next
      { s with op := .decimg, fmt := .bc3, w := w, h := h, plen := plen, status := .invalidDimensions, pos := .idle })

/-- 43_assembler.md R161: `GRID` derives `ceil(W/4)` and `ceil(H/4)`, which fit their 15 bits, and nothing else. -/
def Obligations.GridIsTheCeilingOfTheQuarter : Prop :=
  ∀ s : State, ∃ r c : BitVec 15, exec .grid s = .next { s with bprow := r, bpcol := c } ∧
    s.w.toNat ≤ 4 * r.toNat ∧ 4 * r.toNat < s.w.toNat + 4 ∧ s.h.toNat ≤ 4 * c.toNat ∧ 4 * c.toNat < s.h.toNat + 4

/-- 43_assembler.md R162, R163: `STRIDE` is 8 for BC1 and 16 for BC3; `IMG.INIT` makes `IMG` exactly `W*H*4` bytes of 0;
each changes nothing else. An unrecognised code, which `VALIDATE` excludes, is refused (log 24). -/
def Obligations.StrideAndImageAreSetUp : Prop :=
  (∀ s : State, s.fmt = .bc1 → exec .stride s = .next { s with stride := 8 }) ∧
  (∀ s : State, s.fmt = .bc3 → exec .stride s = .next { s with stride := 16 }) ∧
  (∀ (s : State) (n : Nat), s.fmt = .other n → exec .stride s = .refused .formatNotRecognised) ∧
  (∀ s : State, ∃ m : Memory, exec .imgInit s = .next { s with img := m } ∧
    m.bytes = List.replicate (s.w.toNat * s.h.toNat * 4) 0)

/-- 43_assembler.md R164, R170: inside the grid `BLKNEXT` moves `BLK` to its raster successor, so that `BLKIDX` grows by
one, and after the last block it completes the command with `OK`; nothing else changes. -/
def Obligations.BlockNextIsRasterOrder : Prop :=
  ∀ s : State, s.bc.toNat < s.bprow.toNat → s.br.toNat < s.bpcol.toNat →
    if s.blkIdx + 1 < s.bprow.toNat * s.bpcol.toNat then
      ∃ r c : BitVec 15, exec .blkNext s = .next { s with br := r, bc := c } ∧
        r.toNat * s.bprow.toNat + c.toNat = s.blkIdx + 1 ∧ c.toNat < s.bprow.toNat ∧ r.toNat < s.bpcol.toNat
    else exec .blkNext s = .next { s with status := .ok, pos := .idle }

/-- 43_assembler.md R165, R172: `BLKFETCH` skips exactly when the block's range ends beyond `PLEN`, and otherwise takes the
block's bytes from `PAY`; it changes nothing else. So if a block is skipped, every later one is. The payload is present
(70_reset_and_hazards.md R252). -/
def Obligations.BlockFetchSkipsOrTakesTheBytes : Prop :=
  (∀ s : State, s.PayloadPresent →
    ∃ o : Option (List Byte), exec .blkFetch s = .next { s with blk := o } ∧
      (o = none ↔ s.blkIdx * s.stride.toNat + s.stride.toNat > s.plen) ∧
      ∀ bs, o = some bs → bs.length = s.stride.toNat ∧
        ∀ j, j < s.stride.toNat → bs.getD j 0 = s.pay.read (s.blkIdx * s.stride.toNat + j)) ∧
  (∀ s s' t : State, s'.stride = s.stride → s'.plen = s.plen → s.blkIdx ≤ s'.blkIdx →
    exec .blkFetch s = .next t → t.blk = none → exec .blkFetch s' = .next { s' with blk := none })

/-- 43_assembler.md R166: `DISPATCH` does to a fetched block what the block operation that its bytes decode to does, and
to a skipped block nothing. -/
def Obligations.DispatchRunsTheDecodedBlock : Prop :=
  (∀ (s : State) (bs : List Byte), s.blk = some bs → bs.length = strideOf s.fmt → s.fmt.unrecognised = false →
    ∃ i t, decodeBlock s.fmt bs = .ok i ∧ exec .dispatch s = .next t ∧ exec i s = .next t) ∧
  (∀ s : State, s.blk = none → exec .dispatch s = .next s)

/-- 43_assembler.md R167, 20_memory.md R52: `PIXSTORE` writes, of the bytes of the image, exactly those whose pixel lies in
the block's square, each with its component of the patch pixel at its place in the square; it changes nothing else. The
pixel of address `a` is at column `a/4 % W`, row `a/4 / W`; its bytes are R at offset 0, G at 1, B at 2, A at 3. -/
def Obligations.PixelStoreWritesItsSquare : Prop :=
  ∀ s : State, s.img.wf = true → s.img.size = s.w.toNat * s.h.toNat * 4 →
    ∃ m : Memory, exec .pixStore s = .next { s with img := m } ∧ m.size = s.img.size ∧
      ∀ a, m.read a =
        if a < s.img.size ∧ a / 4 % s.w.toNat / 4 = s.bc.toNat ∧ a / 4 / s.w.toNat / 4 = s.br.toNat then
          let q := s.patch.get (Fin.ofNat 16 (a / 4 / s.w.toNat % 4 * 4 + a / 4 % s.w.toNat % 4))
          [q.r, q.g, q.b, q.a].getD (a % 4) 0
        else s.img.read a

/-- 20_memory.md R62, 70_reset_and_hazards.md R261: blocks write disjoint pixel ranges, so storing two patches at two
different blocks gives the same `IMG` in either order. -/
def Obligations.BlockStoresCommute : Prop :=
  ∀ (s t1 t2 u1 u2 : State) (q : Vector Pixel 16) (r c : BitVec 15),
    s.img.wf = true → s.img.size = s.w.toNat * s.h.toNat * 4 → (r, c) ≠ (s.br, s.bc) →
    exec .pixStore s = .next t1 → exec .pixStore { t1 with patch := q, br := r, bc := c } = .next t2 →
    exec .pixStore { s with patch := q, br := r, bc := c } = .next u1 →
    exec .pixStore { u1 with patch := s.patch, br := s.br, bc := s.bc } = .next u2 → t2.img = u2.img

/-- 43_assembler.md R168, R169, R170, R171: a `DECIMG` on valid operands with its payload present completes with `OK`, the
engine idle, `BLK` at the last block and `IMG` exactly `W*H*4` bytes, whatever `PLEN`; besides its registers it changes
nothing: `PAY`, `SCAN`, `Z`, `OUT`, the chunk registers, and the working registers of the other format stay. That `BLK` stays
at the last block after the command, and that registers the spec calls dead keep their values through it, are the model's
choice (log 16; 10_state.md R34, 93_implementation_defined.md U11). -/
def Obligations.DecodeImageCompletes : Prop :=
  ∀ (w h : Half) (plen : Nat) (s : State), w ≠ 0 → h ≠ 0 → plen ≤ s.pay.size →
    (∃ t, exec (.decimgBc1 w h plen) s = .next t ∧ t.status = .ok ∧ t.pos = .idle ∧ t.stride = 8 ∧
      t.op = .decimg ∧ t.fmt = .bc1 ∧ t.w = w ∧ t.h = h ∧ t.plen = plen ∧
      t.bprow.toNat = (w.toNat + 3) / 4 ∧ t.bpcol.toNat = (h.toNat + 3) / 4 ∧
      t.br.toNat + 1 = t.bpcol.toNat ∧ t.bc.toNat + 1 = t.bprow.toNat ∧ t.img.bytes.length = w.toNat * h.toNat * 4 ∧
      t.a0 = s.a0 ∧ t.a1 = s.a1 ∧ t.abits = s.abits ∧ t.amode8 = s.amode8 ∧ t.ramp = s.ramp ∧
      t.blen = s.blen ∧ t.phase = s.phase ∧ t.row = s.row ∧ t.crc = s.crc ∧ t.tag = s.tag ∧ t.dlen = s.dlen ∧
      t.pay = s.pay ∧ t.scan = s.scan ∧ t.z = s.z ∧ t.out = s.out ∧ t.res = s.res) ∧
    (∃ t, exec (.decimgBc3 w h plen) s = .next t ∧ t.status = .ok ∧ t.pos = .idle ∧ t.stride = 16 ∧
      t.op = .decimg ∧ t.fmt = .bc3 ∧ t.w = w ∧ t.h = h ∧ t.plen = plen ∧
      t.bprow.toNat = (w.toNat + 3) / 4 ∧ t.bpcol.toNat = (h.toNat + 3) / 4 ∧
      t.br.toNat + 1 = t.bpcol.toNat ∧ t.bc.toNat + 1 = t.bprow.toNat ∧ t.img.bytes.length = w.toNat * h.toNat * 4 ∧
      t.mode4 = s.mode4 ∧
      t.blen = s.blen ∧ t.phase = s.phase ∧ t.row = s.row ∧ t.crc = s.crc ∧ t.tag = s.tag ∧ t.dlen = s.dlen ∧
      t.pay = s.pay ∧ t.scan = s.scan ∧ t.z = s.z ∧ t.out = s.out ∧ t.res = s.res)

/-- 43_assembler.md R165, R167, R172, 20_memory.md R51 to R53: after a completed `DECIMG` the four bytes of every pixel of
the image are the R, G, B, A, in this order, of `imagePixel`: the pixel of the one block that covers it, decoded from its bytes of the payload, or
transparent black when that block's range ends beyond `PLEN`. -/
def Obligations.DecodedImageIsTheDecodedBlocks : Prop :=
  ∀ (f : FormatCode) (i : Instr) (w h : Half) (plen : Nat) (s : State), w ≠ 0 → h ≠ 0 → plen ≤ s.pay.size →
    (f, i) ∈ [(FormatCode.bc1, Instr.decimgBc1 w h plen), (FormatCode.bc3, Instr.decimgBc3 w h plen)] →
    ∃ t, exec i s = .next t ∧ ∀ x y, x < w.toNat → y < h.toNat →
      let q := imagePixel s.config f w.toNat plen s.pay.read x y
      (t.img.bytes.drop ((y * w.toNat + x) * 4)).take 4 = [q.r, q.g, q.b, q.a]

/-- 10_state.md R34, 43_assembler.md R173, 60_exceptions.md R229, R230: the image depends on the operands, on the
payload bytes of the grid's blocks and, for BC3, on `RAMP_WEIGHTS` alone: neither earlier commands nor surplus payload bytes
can be seen in it. -/
def Obligations.ImageDependsOnlyOnItsBlocks : Prop :=
  ∀ (f : FormatCode) (i i' : Instr) (w h : Half) (plen plen' : Nat) (s s' : State),
    plen ≤ s.pay.size → plen' ≤ s'.pay.size →
    (f, i, i') ∈ [(FormatCode.bc1, Instr.decimgBc1 w h plen, Instr.decimgBc1 w h plen'),
      (FormatCode.bc3, Instr.decimgBc3 w h plen, Instr.decimgBc3 w h plen')] →
    min plen (((w.toNat + 3) / 4) * ((h.toNat + 3) / 4) * strideOf f) =
      min plen' (((w.toNat + 3) / 4) * ((h.toNat + 3) / 4) * strideOf f) →
    (∀ a, a < min plen (((w.toNat + 3) / 4) * ((h.toNat + 3) / 4) * strideOf f) → s.pay.read a = s'.pay.read a) →
    w ≠ 0 → h ≠ 0 → (f = .bc3 → s.config.rampWeights = s'.config.rampWeights) →
    ∃ t t', exec i s = .next t ∧ exec i' s' = .next t' ∧ t.img = t'.img ∧ t.status = t'.status

/-! ### Checksum and chunk -/

/-- 44_crc_frame.md R180: `BE32` answers the four bytes, the most significant first, and changes nothing else. -/
def Obligations.BigEndianSerialises : Prop :=
  ∀ (v : Word) (s : State), ∃ b0 b1 b2 b3 : Byte, exec (.be32 v) s = .next { s with res := .bytes [b0, b1, b2, b3] } ∧
    v.toNat = b0.toNat * 2 ^ 24 + b1.toNat * 2 ^ 16 + b2.toNat * 2 ^ 8 + b3.toNat

/-- 44_crc_frame.md R181, R183: `CRC32.INIT` sets all 32 bits of `CRC`; `CRC32.FIN` answers `CRC` with all 32 bits
inverted and keeps `CRC`. -/
def Obligations.ChecksumStartsAndFinishesInverted : Prop :=
  (∀ s : State, ∃ c : Word, exec .crc32Init s = .next { s with crc := c } ∧ c.toNat = 2 ^ 32 - 1) ∧
  (∀ s : State, ∃ v : Word, exec .crc32Fin s = .next { s with res := .word v } ∧ v.toNat = 2 ^ 32 - 1 - s.crc.toNat)

/-- 44_crc_frame.md R185 (the table form of R182): `CRC32.UPD(x)` equals `CRC <- T[(CRC ^ x) & 0xFF] ^ (CRC >> 8)`, where
`T[n]` is `n` after 8 shift steps, a shift step halving the value and, when its bit 0 was 1, flipping the polynomial's bits;
the printed entries of `T`; it changes `CRC` alone. -/
def Obligations.ChecksumUpdateIsTheTableForm : Prop :=
  (∀ (x : Byte) (s : State), exec (.crc32Upd x) s = .next
    { s with crc := crcShifts 8 ((s.crc ^^^ x.setWidth 32) &&& 0xFF) ^^^ (s.crc >>> 8) }) ∧
  (∀ c : Word, crcShifts 1 c = if c.toNat % 2 = 1 then BitVec.ofNat 32 (c.toNat / 2) ^^^ 0xEDB88320
    else BitVec.ofNat 32 (c.toNat / 2)) ∧
  (∀ (m n : Nat) (c : Word), crcShifts (m + n) c = crcShifts n (crcShifts m c)) ∧ (∀ c : Word, crcShifts 0 c = c) ∧
  [0, 1, 2, 3, 4, 5, 6, 7, 128, 255].map (crcShifts 8) =
    [0x00000000, 0x77073096, 0xEE0E612C, 0x990951BA, 0x076DC419, 0x706AF48F, 0xE963A535, 0x9E6495A3, 0xEDB88320,
      0x2D02EF8D]

/-- 44_crc_frame.md R184: `CRC32` of the empty string is 0, and `CRC32` of a string with one byte more is `CRC32` of the
string, then `CRC32.UPD` of the byte, then `CRC32.FIN`. -/
def Obligations.ChecksumAbsorbsByteByByte : Prop :=
  (∀ s : State, exec (.crc32 []) s = .next { s with crc := 0xFFFFFFFF, res := .word 0 }) ∧
  (∀ (bs : List Byte) (x : Byte) (s : State), ∃ t u v, exec (.crc32 bs) s = .next t ∧ exec (.crc32Upd x) t = .next u ∧
    exec .crc32Fin u = .next v ∧ exec (.crc32 (bs ++ [x])) s = .next v)

/-- 44_crc_frame.md R184: the checksum depends on every bit of every byte: changing one byte of a string changes it. -/
def Obligations.ChecksumSeesEveryByte : Prop :=
  ∀ (a b : List Byte) (x y : Byte) (s t t' : State), exec (.crc32 (a ++ x :: b)) s = .next t →
    exec (.crc32 (a ++ y :: b)) s = .next t' → t.res = t'.res → x = y

/-- 44_crc_frame.md R186, R187, R188, 20_memory.md R56: `CHUNK` appends the frame of its tag and data to `OUT`, the checksum
taken over tag then data; it writes `TAG`, `DLEN`, `CRC` and nothing else, and none of their earlier values is seen. With
more data bytes than `CHUNK_MAX`, 2^32 - 1 or 2^31 - 1 by the configuration, it has no meaning. -/
def Obligations.ChunkAppendsItsFrame : Prop :=
  (∀ (tag : Tag) (data : List Byte) (s : State), s.ChunkFits data.length → s.out.wf = true →
    ∃ (c : Word) (m : Memory) (len crc : List Byte) (k : Word),
      exec (.chunk tag data) s = .next { s with tag := tag, dlen := BitVec.ofNat 32 data.length, crc := c, out := m } ∧
      m.bytes = s.out.bytes ++ len ++ tag.bytes ++ data ++ crc ∧
      len.length = 4 ∧ beNat len = data.length ∧ crc.length = 4 ∧ beNat crc = k.toNat ∧
      (∀ s', ∃ t, exec (.crc32 (tag.bytes ++ data)) s' = .next t ∧ t.res = .word k)) ∧
  (∀ (tag : Tag) (data : List Byte) (s : State), ¬ s.ChunkFits data.length →
    exec (.chunk tag data) s = .refused .chunkTooLong)

/-! ### The file encoder -/

/-- 45_file_encoder.md R200, 60_exceptions.md R223, R227, R239(b): `ENC.VALIDATE` raises `BufferSizeMismatch` exactly when
`BLEN` is not `W*H*4`; a zero dimension that passes the check is refused; otherwise nothing changes. That the check comes
before the refusal is the model's reading (log 12). -/
def Obligations.EncoderValidatesTheLength : Prop :=
  ∀ s : State,
    (s.blen ≠ s.w.toNat * s.h.toNat * 4 →
      exec .encValidate s = .next { s with status := .bufferSizeMismatch, pos := .idle }) ∧
    (s.blen = s.w.toNat * s.h.toNat * 4 → (s.w = 0 ∨ s.h = 0) → exec .encValidate s = .refused .zeroDimensionEncode) ∧
    (s.blen = s.w.toNat * s.h.toNat * 4 → s.w ≠ 0 → s.h ≠ 0 → exec .encValidate s = .next s)

/-- 45_file_encoder.md R201, R202, R206: `SIG` appends the 8 signature bytes, `IHDR` the header chunk with `W` and `H`
big-endian, its 21 bytes before the checksum and as the `CHUNK` of its 13 data bytes, `IEND` the 12 bytes of the terminator
chunk. `SIG` writes `PHASE` and `OUT` alone, the two chunks also `TAG`, `DLEN`, `CRC`. -/
def Obligations.FixedPartsOfTheFile : Prop :=
  ∀ s : State, s.out.wf = true →
    (∃ m : Memory, exec .sig s = .next { s with phase := .sig, out := m } ∧
      m.bytes = s.out.bytes ++ [0x89, 0x50, 0x4E, 0x47, 0x0D, 0x0A, 0x1A, 0x0A]) ∧
    (∃ (m : Memory) (c : Word) (w0 w1 h0 h1 : Byte) (crc : List Byte),
      exec .ihdr s = .next { s with phase := .ihdr, tag := Tag.ihdr, dlen := 13, crc := c, out := m } ∧
      exec .ihdr s = exec (.chunk Tag.ihdr [0x00, 0x00, w0, w1, 0x00, 0x00, h0, h1, 0x08, 0x06, 0x00, 0x00, 0x00])
        { s with phase := .ihdr } ∧
      s.w.toNat = w0.toNat * 256 + w1.toNat ∧ s.h.toNat = h0.toNat * 256 + h1.toNat ∧ crc.length = 4 ∧
      m.bytes = s.out.bytes ++ [0x00, 0x00, 0x00, 0x0D, 0x49, 0x48, 0x44, 0x52, 0x00, 0x00, w0, w1, 0x00, 0x00, h0, h1,
        0x08, 0x06, 0x00, 0x00, 0x00] ++ crc) ∧
    (∃ (m : Memory) (c : Word), exec .iend s = .next { s with phase := .iend, tag := Tag.iend, dlen := 0, crc := c, out := m } ∧
      m.bytes = s.out.bytes ++ [0x00, 0x00, 0x00, 0x00, 0x49, 0x45, 0x4E, 0x44, 0xAE, 0x42, 0x60, 0x82])

/-- 45_file_encoder.md R203, 20_memory.md R54: `SCAN` writes `H` records of `1 + W*4` bytes, record `y` the filter-type
byte 0 and then the bytes of row `y` of `IMG` unchanged; it writes `PHASE`, `ROW`, `SCAN` and nothing else. The buffer is
present (70_reset_and_hazards.md R253). -/
def Obligations.ScanlinesAreTheFilteredRows : Prop :=
  ∀ s : State, s.h ≠ 0 → s.img.size = s.w.toNat * s.h.toNat * 4 →
    ∃ m : Memory, exec .scan s = .next { s with phase := .scan, row := s.h - 1, scan := m } ∧
      m.size = s.h.toNat * (1 + s.w.toNat * 4) ∧
      ∀ y, y < s.h.toNat → m.read (y * (1 + s.w.toNat * 4)) = 0 ∧
        ∀ k, k < s.w.toNat * 4 → m.read (y * (1 + s.w.toNat * 4) + 1 + k) = s.img.read (y * s.w.toNat * 4 + k)

/-- 45_file_encoder.md R204, R205: `COMPRESS` writes `Z` with the compressed `SCAN`, and `PHASE`, and nothing else, and some
`INFLATE` undoes every `COMPRESS` step; `IDAT` appends all of `Z` as one pixel-data chunk (its big-endian length, the tag
bytes 49 44 41 54, the bytes, the checksum over tag and bytes) and writes `PHASE`, `TAG`, `DLEN`, `CRC` and `OUT` alone. That the compressor is uninterpreted is the model's reading (log 9). -/
def Obligations.PixelDataIsCompressedIntoOneChunk : Prop :=
  (∃ inflate : List Byte → List Byte, ∀ s : State, ∃ m : Memory,
    exec .compress s = .next { s with phase := .compress, z := m } ∧ m.bytes = Config.compress s.scan.bytes ∧
      inflate m.bytes = s.scan.bytes) ∧
  (∀ s : State, s.out.wf = true → s.ChunkFits s.z.size →
    ∃ (m : Memory) (c : Word) (len crc : List Byte) (k : Word),
      exec .idat s = .next
        { s with phase := .idat, tag := ⟨0x49, 0x44, 0x41, 0x54⟩, dlen := BitVec.ofNat 32 s.z.size, crc := c, out := m } ∧
      m.bytes = s.out.bytes ++ len ++ [0x49, 0x44, 0x41, 0x54] ++ s.z.bytes ++ crc ∧
      len.length = 4 ∧ beNat len = s.z.size ∧ crc.length = 4 ∧ beNat crc = k.toNat ∧
      (∀ s', ∃ t, exec (.crc32 ([0x49, 0x44, 0x41, 0x54] ++ s.z.bytes)) s' = .next t ∧ t.res = .word k))

/-- 60_exceptions.md R223, R228, R239(b): an `ENCFILE` whose `BLEN` is not `W*H*4` ends with `BufferSizeMismatch` and
`OUT` empty; `SCAN`, `Z`, `IMG` and everything else but its operand registers and `PHASE` stay. One with a zero dimension
whose `BLEN` passes the check has no meaning. That the check comes before the refusal is the model's reading (log 12). -/
def Obligations.InvalidFileOperandsAreTurnedAway : Prop :=
  (∀ (w h : Half) (blen : Nat) (s : State), blen ≠ w.toNat * h.toNat * 4 → ∃ m : Memory, m.bytes = [] ∧
    exec (.encfile w h blen) s = .next
      { s with op := .encfile, w := w, h := h, blen := blen, out := m, phase := .sig, status := .bufferSizeMismatch,
               pos := .idle }) ∧
  (∀ (w h : Half) (s : State), (w = 0 ∨ h = 0) →
    exec (.encfile w h (w.toNat * h.toNat * 4)) s = .refused .zeroDimensionEncode)

/-- 45_file_encoder.md R207, R208, R210, 44_crc_frame.md R187: `ENCFILE` on valid operands with its buffer present answers,
unless the compressed scanlines are more than `CHUNK_MAX` bytes, a next state with `OK`, `PHASE = DONE`, the engine idle and `OUT`
exactly the file: signature, header chunk, one pixel-data chunk with `COMPRESS(SCAN)`, terminator chunk, `57 + len(Z)`
bytes; `IMG`, `PAY` and everything outside the encoder's registers stay. `COMPRESS` is uninterpreted, so which of the two
cases an image falls in is not decided here; they exclude each other. What `ROW`, `TAG`, `DLEN`, `SCAN`, `Z` hold after the
command, and that registers dead by then stay, are the model's choice (log 16; 10_state.md R34, 44_crc_frame.md R188). -/
def Obligations.EncodeFileWritesTheFile : Prop :=
  ∀ (w h : Half) (s : State), w ≠ 0 → h ≠ 0 → s.img.size = w.toNat * h.toNat * 4 →
    if s.ChunkFits (Config.compress (scanlines (w.toNat * 4) h.toNat s.img.bytes)).length then
      ∃ (m sc z : Memory) (c : Word),
        exec (.encfile w h (w.toNat * h.toNat * 4)) s = .next
          { s with op := .encfile, w := w, h := h, blen := w.toNat * h.toNat * 4, status := .ok, phase := .done,
                   pos := .idle, row := h - 1, tag := Tag.iend, dlen := 0, crc := c, scan := sc, z := z, out := m } ∧
        sc.bytes = scanlines (w.toNat * 4) h.toNat s.img.bytes ∧ z.bytes = Config.compress sc.bytes ∧
        m.bytes = fileBytes w h z.bytes ∧ m.bytes.length = 57 + z.bytes.length
    else exec (.encfile w h (w.toNat * h.toNat * 4)) s = .refused .chunkTooLong

/-- 45_file_encoder.md R209: the output, taken apart by the layout of rule R94 with every chunk's length and checksum
verified, inflated and freed of its filter bytes, reproduces the image bit for bit, for every `INFLATE` that undoes
`COMPRESS`. -/
def Obligations.FileRoundTripReproducesTheImage : Prop :=
  ∀ (w h : Half) (s : State), w ≠ 0 → h ≠ 0 → s.img.size = w.toNat * h.toNat * 4 →
    match exec (.encfile w h (w.toNat * h.toNat * 4)) s with
    | .next t => ∃ z, decodeFile t.out.bytes = some ⟨w.toNat, h.toNat, z⟩ ∧
        ∀ inflate : List Byte → List Byte, (∀ x, inflate (Config.compress x) = x) →
          dropFilterBytes (w.toNat * 4) h.toNat (inflate z) = s.img.bytes
    | .fault _ => False
    | .refused r => r = .chunkTooLong

/-- 45_file_encoder.md R211, 30_encoding.md R97: `CONVERT` of valid operands with the payload present is `DECIMG`, which
succeeds, and then `ENCFILE` on the same dimensions with the image it left, whose length check passes; the result is the
file of that image. Unless the compressed scanlines are more than `CHUNK_MAX` bytes, it answers a next state. That `OUT` is emptied
first is the model's reading (log 22). -/
def Obligations.ConvertIsDecodeThenEncode : Prop :=
  ∀ (f : FormatCode) (i : Instr) (w h : Half) (plen : Nat) (s : State), w ≠ 0 → h ≠ 0 → plen ≤ s.pay.size →
    (f, i) ∈ [(FormatCode.bc1, Instr.decimgBc1 w h plen), (FormatCode.bc3, Instr.decimgBc3 w h plen)] →
    ∃ t, exec i s = .next t ∧ t.status = .ok ∧ t.img.size = w.toNat * h.toNat * 4 ∧
      if s.ChunkFits (Config.compress (scanlines (w.toNat * 4) h.toNat t.img.bytes)).length then
        ∃ u, exec (.convert f w h plen) s = .next u ∧ exec (.encfile w h (w.toNat * h.toNat * 4)) t = .next u ∧
          u.status = .ok ∧ u.img = t.img ∧
          u.out.bytes = fileBytes w h (Config.compress (scanlines (w.toNat * 4) h.toNat t.img.bytes))
      else exec (.convert f w h plen) s = .refused .chunkTooLong

/-- 45_file_encoder.md R211, 30_encoding.md R97: a `CONVERT` whose `DECIMG` part raises ends with that error, the one that
the `DECIMG` on the same operands reports (`UnsupportedFormat` for a bad format alone, `InvalidDimensions` for a zero
dimension alone, one of the two for both faults), `OUT` empty, `IMG` untouched. That `OUT` is emptied first is the model's
reading (log 22). -/
def Obligations.ConvertErrorLeavesNoFile : Prop :=
  ∀ (f : FormatCode) (w h : Half) (plen : Nat) (s : State), (f.unrecognised = true ∨ w = 0 ∨ h = 0) →
    ∃ d t, exec (match f with
        | .bc1 => .decimgBc1 w h plen
        | .bc3 => .decimgBc3 w h plen
        | .other n => .decimgOther (.other n) w h plen) s = .next d ∧
      exec (.convert f w h plen) s = .next t ∧ t.status = d.status ∧
      (w ≠ 0 → h ≠ 0 → t.status = .unsupportedFormat) ∧
      (f.unrecognised = false → t.status = .invalidDimensions) ∧
      (t.status = .unsupportedFormat ∨ t.status = .invalidDimensions) ∧
      t.pos = .idle ∧ t.out.bytes = [] ∧ t.img = s.img ∧
      t.pay = s.pay ∧ t.scan = s.scan ∧ t.z = s.z

/-- 10_state.md R34: the file depends on `W`, `H`, `BLEN`, `IMG` and the configuration alone: two `ENCFILE` with the same
operands, image and `CHUNK_MAX` end alike, whatever ran before. -/
def Obligations.FileDependsOnlyOnItsImage : Prop :=
  ∀ (w h : Half) (blen : Nat) (s s' : State), s.img = s'.img →
    s.config.chunkMax = s'.config.chunkMax →
    match exec (.encfile w h blen) s, exec (.encfile w h blen) s' with
    | .next t, .next t' => t.out = t'.out ∧ t.status = t'.status
    | .fault r, .fault r' => r = r'
    | .refused r, .refused r' => r = r'
    | _, _ => False

/-! ### The whole machine -/

/-- The canonical form of the byte spaces, in which equal sequences of bytes are equal data, is kept by every step
(log 6: the form is the model's). -/
def Obligations.EveryStepKeepsCanonicalMemory : Prop :=
  ∀ s t : State, s.Canonical = true → step s = .next t → t.Canonical = true

/-- 20_memory.md R51, R64, 10_state.md R33: the engine never writes `PAY`, and no step changes the configuration, which is a
parameter of the step and no state of the machine (that the model holds it in a field: log 28). -/
def Obligations.EngineNeverWritesPayloadOrConfiguration : Prop :=
  ∀ s t : State, step s = .next t → t.pay = s.pay ∧ t.config = s.config

/-- 10_state.md R22: `STATUS` is written only at the end of a command: a step that changes it leaves the engine idle. -/
def Obligations.StatusChangesOnlyAtTheEnd : Prop :=
  ∀ s t : State, step s = .next t → t.status ≠ s.status → t.pos = .idle

/-- 10_state.md R23, R24, 43_assembler.md R168, 45_file_encoder.md R207: the sequencer keeps its order: what holds where the
engine stands (`State.Coherent`) is kept by every step. -/
def Obligations.EveryStepKeepsCoherence : Prop :=
  ∀ s t : State, s.Coherent → step s = .next t → t.Coherent

/-- 20_memory.md R60: a command started with the host's duties met makes no access outside its spaces: no step from a
coherent state faults. -/
def Obligations.CoherentStepsDoNotFault : Prop :=
  ∀ s : State, s.Coherent → FaultFree (step s)

/-- 20_memory.md R59, 70_reset_and_hazards.md R267: running a command one operation a step, from its entry point, ends as
running it in one step does, and does end. -/
def Obligations.StepwiseRunEqualsTheCommand : Prop :=
  ∀ s : State, ∃ k, Host.Core.run Sys2Proof.core k (enterCommand s) = exec (decodeCommand s.record) s
end

