-- ==== Sys2Proof/Laws/Memory.lean ====
section
/-! SUPPORT. The laws of a byte space: reading after writing, appending, and that every operation keeps the canonical
form. -/

namespace Sys2Proof.Machine

/-! ### Cells -/

theorem cellsOk_mono {size lo lo' : Nat} (h : lo' ≤ lo) :
    ∀ cs, cellsOk size lo cs = true → cellsOk size lo' cs = true
  | [], _ => rfl
  | (k, b) :: cs, hc => by
    simp only [cellsOk, Bool.and_eq_true, decide_eq_true_eq] at hc ⊢
    exact ⟨⟨⟨by omega, hc.1.1.2⟩, hc.1.2⟩, hc.2⟩

theorem cellsOk_grow {size size' : Nat} (h : size ≤ size') :
    ∀ lo cs, cellsOk size lo cs = true → cellsOk size' lo cs = true
  | _, [], _ => rfl
  | lo, (k, b) :: cs, hc => by
    simp only [cellsOk, Bool.and_eq_true, decide_eq_true_eq] at hc ⊢
    exact ⟨⟨⟨hc.1.1.1, by omega⟩, hc.1.2⟩, cellsOk_grow h _ cs hc.2⟩

/-- An address below every listed one reads 0. -/
theorem cellRead_below {size lo : Nat} :
    ∀ cs, cellsOk size lo cs = true → ∀ a, a < lo → cellRead cs a = 0
  | [], _, _, _ => rfl
  | (k, b) :: cs, hc, a, ha => by
    simp only [cellsOk, Bool.and_eq_true, decide_eq_true_eq] at hc
    have : a ≠ k := by omega
    simp only [cellRead, if_neg this]
    exact cellRead_below cs hc.2 a (by omega)

/-- An address from the size on reads 0. -/
theorem cellRead_beyond {size : Nat} :
    ∀ lo cs, cellsOk size lo cs = true → ∀ a, size ≤ a → cellRead cs a = 0
  | _, [], _, _, _ => rfl
  | lo, (k, b) :: cs, hc, a, ha => by
    simp only [cellsOk, Bool.and_eq_true, decide_eq_true_eq] at hc
    have : a ≠ k := by omega
    simp only [cellRead, if_neg this]
    exact cellRead_beyond _ cs hc.2 a ha

theorem cellWrite_ok {size : Nat} (a : Nat) (v : Byte) (ha : a < size) :
    ∀ lo cs, lo ≤ a → cellsOk size lo cs = true → cellsOk size lo (cellWrite cs a v) = true
  | lo, [], hl, _ => by
    unfold cellWrite
    split
    · rfl
    · next hv =>
      simp only [cellsOk, Bool.and_eq_true, decide_eq_true_eq]
      exact ⟨⟨⟨hl, ha⟩, hv⟩, trivial⟩
  | lo, (k, b) :: cs, hl, hc => by
    simp only [cellsOk, Bool.and_eq_true, decide_eq_true_eq] at hc
    obtain ⟨⟨⟨h1, h2⟩, h3⟩, h4⟩ := hc
    unfold cellWrite
    split
    · next hak =>
      split
      · exact cellsOk_mono (by omega) cs h4
      · next hv =>
        simp only [cellsOk, Bool.and_eq_true, decide_eq_true_eq]
        exact ⟨⟨⟨hl, ha⟩, hv⟩, hak ▸ h4⟩
    · next hak =>
      split
      · next hlt =>
        split
        · simp only [cellsOk, Bool.and_eq_true, decide_eq_true_eq]
          exact ⟨⟨⟨h1, h2⟩, h3⟩, h4⟩
        · next hv =>
          simp only [cellsOk, Bool.and_eq_true, decide_eq_true_eq]
          exact ⟨⟨⟨hl, ha⟩, hv⟩, ⟨⟨by omega, h2⟩, h3⟩, h4⟩
      · simp only [cellsOk, Bool.and_eq_true, decide_eq_true_eq]
        exact ⟨⟨⟨h1, h2⟩, h3⟩, cellWrite_ok a v ha (k + 1) cs (by omega) h4⟩

/-- Reading after writing: the address written reads the byte written, every other reads as before. -/
theorem cellRead_cellWrite {size : Nat} (a : Nat) (v : Byte) (x : Nat) :
    ∀ lo cs, cellsOk size lo cs = true →
      cellRead (cellWrite cs a v) x = if x = a then v else cellRead cs x
  | lo, [], _ => by
    unfold cellWrite
    split
    · next hv => by_cases hx : x = a <;> simp [cellRead, hv, hx]
    · simp [cellRead]
  | lo, (k, b) :: cs, hc => by
    simp only [cellsOk, Bool.and_eq_true, decide_eq_true_eq] at hc
    obtain ⟨⟨⟨h1, h2⟩, h3⟩, h4⟩ := hc
    unfold cellWrite
    split
    · next hak =>
      subst hak
      by_cases hx : x = a
      · subst hx
        split
        · next hv => simp [cellRead_below cs h4 x (by omega), hv]
        · simp [cellRead]
      · split <;> simp [cellRead, hx]
    · next hak =>
      split
      · next hlt =>
        by_cases hx : x = a
        · subst hx
          split
          · next hv =>
            have hk : x ≠ k := by omega
            simp [cellRead, hk, cellRead_below cs h4 x (by omega), hv]
          · simp [cellRead]
        · split
          · simp
          · simp [cellRead, hx]
      · simp only [cellRead]
        rw [cellRead_cellWrite a v x (k + 1) cs h4]
        by_cases hx : x = k
        · have : x ≠ a := fun e => hak (by omega)
          subst hx
          simp [this]
        · simp [hx]

theorem cellsOf_ok : ∀ a (bs : List Byte) size, a + bs.length ≤ size → cellsOk size a (cellsOf a bs) = true
  | _, [], _, _ => rfl
  | a, v :: vs, size, h => by
    simp only [List.length_cons] at h
    have ih := cellsOf_ok (a + 1) vs size (by omega)
    unfold cellsOf
    split
    · exact cellsOk_mono (by omega) _ ih
    · next hv =>
      simp only [cellsOk, Bool.and_eq_true, decide_eq_true_eq]
      exact ⟨⟨⟨Nat.le_refl a, by omega⟩, hv⟩, ih⟩

theorem cellRead_cellsOf : ∀ a (bs : List Byte) k, cellRead (cellsOf a bs) (a + k) = bs.getD k 0
  | _, [], _ => by simp [cellsOf, cellRead]
  | a, v :: vs, 0 => by
    unfold cellsOf
    split
    · next hv =>
      have := cellRead_below _ (cellsOf_ok (a + 1) vs (a + 1 + vs.length) (by omega)) a (by omega)
      simp [this, hv]
    · simp [cellRead]
  | a, v :: vs, k + 1 => by
    have ih := cellRead_cellsOf (a + 1) vs k
    have e : a + (k + 1) = a + 1 + k := by omega
    unfold cellsOf
    split
    · simpa [e] using ih
    · have : a + 1 + k ≠ a := by omega
      simpa [cellRead, e, this] using ih

theorem cellsOk_append {size mid : Nat} {ds : List Host.Cell} (hd : cellsOk size mid ds = true) (hm : mid ≤ size) :
    ∀ lo cs, cellsOk mid lo cs = true → lo ≤ mid → cellsOk size lo (cs ++ ds) = true
  | lo, [], _, hl => cellsOk_mono hl ds hd
  | lo, (k, b) :: cs, hc, _ => by
    simp only [cellsOk, Bool.and_eq_true, decide_eq_true_eq] at hc
    simp only [List.cons_append, cellsOk, Bool.and_eq_true, decide_eq_true_eq]
    exact ⟨⟨⟨hc.1.1.1, by omega⟩, hc.1.2⟩, cellsOk_append hd hm (k + 1) cs hc.2 (by omega)⟩

theorem cellRead_append_left {mid : Nat} {ds : List Host.Cell} (hd : ∀ a, a < mid → cellRead ds a = 0) (a : Nat)
    (ha : a < mid) : ∀ cs, cellRead (cs ++ ds) a = cellRead cs a
  | [] => by simpa [cellRead] using hd a ha
  | (k, b) :: cs => by
    simp only [List.cons_append, cellRead]
    split
    · rfl
    · exact cellRead_append_left hd a ha cs

theorem cellRead_append_right {mid : Nat} (ds : List Host.Cell) (a : Nat) (ha : mid ≤ a) :
    ∀ lo cs, cellsOk mid lo cs = true → cellRead (cs ++ ds) a = cellRead ds a
  | _, [], _ => rfl
  | lo, (k, b) :: cs, hc => by
    simp only [cellsOk, Bool.and_eq_true, decide_eq_true_eq] at hc
    have : a ≠ k := by omega
    simp only [List.cons_append, cellRead, if_neg this]
    exact cellRead_append_right ds a ha _ cs hc.2

/-! ### Spaces -/

@[simp] theorem Memory.wf_empty : Memory.empty.wf = true := rfl
@[simp] theorem Memory.wf_zeros (n : Nat) : (Memory.zeros n).wf = true := rfl
@[simp] theorem Memory.size_empty : Memory.empty.size = 0 := rfl
@[simp] theorem Memory.size_zeros (n : Nat) : (Memory.zeros n).size = n := rfl
@[simp] theorem Memory.read_zeros (n a : Nat) : (Memory.zeros n).read a = 0 := rfl
@[simp] theorem Memory.bytes_empty : Memory.empty.bytes = [] := rfl
@[simp] theorem Memory.size_ofBytes (bs : List Byte) : (Memory.ofBytes bs).size = bs.length := rfl
@[simp] theorem Memory.size_append (m : Memory) (bs : List Byte) : (m.append bs).size = m.size + bs.length := rfl

@[simp] theorem Memory.length_bytes (m : Memory) : m.bytes.length = m.size := by simp [Memory.bytes]

theorem Memory.bytes_getD (m : Memory) (a : Nat) (h : a < m.size) : m.bytes.getD a 0 = m.read a := by
  simp [Memory.bytes, h]

@[simp] theorem Memory.bytes_zeros (n : Nat) : (Memory.zeros n).bytes = List.replicate n 0 := by
  apply List.ext_getElem
  · simp
  · intro i h1 h2
    simp [Memory.bytes]

/-- An address that the space does not have reads 0. -/
theorem Memory.read_beyond {m : Memory} (hm : m.wf = true) {a : Nat} (h : m.size ≤ a) : m.read a = 0 :=
  cellRead_beyond 0 m.cells hm a h

theorem Memory.wf_ofBytes (bs : List Byte) : (Memory.ofBytes bs).wf = true :=
  cellsOf_ok 0 bs bs.length (by omega)

theorem Memory.read_ofBytes (bs : List Byte) (a : Nat) : (Memory.ofBytes bs).read a = bs.getD a 0 := by
  have := cellRead_cellsOf 0 bs a
  simpa [Memory.read, Memory.ofBytes] using this

@[simp] theorem Memory.bytes_ofBytes (bs : List Byte) : (Memory.ofBytes bs).bytes = bs := by
  apply List.ext_getElem
  · simp
  · intro i h1 h2
    simp [Memory.bytes, Memory.read_ofBytes, h2]

/-- `MemRead` answers exactly when every address exists, with the bytes at them. -/
theorem Memory.readBytes_eq_some {m : Memory} {a n : Nat} {bs : List Byte} :
    m.readBytes a n = some bs ↔ a + n ≤ m.size ∧ bs = (List.range n).map fun k => m.read (a + k) := by
  unfold Memory.readBytes
  split
  · next h => simp [h, eq_comm]
  · next h => simp [h]

theorem Memory.length_of_readBytes {m : Memory} {a n : Nat} {bs : List Byte} (h : m.readBytes a n = some bs) :
    bs.length = n := by
  rw [Memory.readBytes_eq_some] at h
  simp [h.2]

/-- Reading through `bytes`: `MemRead` is a slice of the space. -/
theorem Memory.readBytes_eq_slice {m : Memory} {a n : Nat} (h : a + n ≤ m.size) :
    m.readBytes a n = some ((m.bytes.drop a).take n) := by
  rw [Memory.readBytes_eq_some]
  refine ⟨h, ?_⟩
  apply List.ext_getElem
  · simp
    omega
  · intro i h1 h2
    simp [Memory.bytes]

theorem Memory.size_writeList : ∀ (bs : List Byte) (m : Memory) (a : Nat), (m.writeList a bs).size = m.size
  | [], _, _ => rfl
  | _ :: vs, _, a => by
    unfold Memory.writeList
    rw [Memory.size_writeList vs]

theorem Memory.wf_writeList : ∀ (bs : List Byte) (m : Memory) (a : Nat), m.wf = true → a + bs.length ≤ m.size →
    (m.writeList a bs).wf = true
  | [], _, _, hm, _ => hm
  | v :: vs, m, a, hm, h => by
    simp only [List.length_cons] at h
    unfold Memory.writeList
    have hs : a + 1 + vs.length ≤ m.size := by omega
    have ha : a < m.size := by omega
    exact Memory.wf_writeList vs _ _ (cellWrite_ok a v ha 0 m.cells (Nat.zero_le a) hm) hs

/-- Reading after writing a byte string. -/
theorem Memory.read_writeList : ∀ (bs : List Byte) (m : Memory) (a x : Nat), m.wf = true → a + bs.length ≤ m.size →
    (m.writeList a bs).read x = if a ≤ x ∧ x < a + bs.length then bs.getD (x - a) 0 else m.read x
  | [], m, a, x, _, _ => by
    have : ¬ (a ≤ x ∧ x < a + ([] : List Byte).length) := by simp
    rw [if_neg this]
    rfl
  | v :: vs, m, a, x, hm, h => by
    simp only [List.length_cons] at h
    unfold Memory.writeList
    have hw := cellWrite_ok a v (by omega) 0 m.cells (by omega) hm
    have hs : a + 1 + vs.length ≤ m.size := by omega
    rw [Memory.read_writeList vs ⟨m.size, cellWrite m.cells a v⟩ (a + 1) x hw hs]
    have hr : Memory.read ⟨m.size, cellWrite m.cells a v⟩ x = if x = a then v else m.read x :=
      cellRead_cellWrite a v x 0 m.cells hm
    rw [hr]
    by_cases hxa : x = a
    · subst hxa
      have h1 : ¬ (x + 1 ≤ x ∧ x < x + 1 + vs.length) := by omega
      have h2 : x ≤ x ∧ x < x + (v :: vs).length := ⟨le_refl x, by simp⟩
      rw [if_neg h1, if_pos h2]
      simp
    · by_cases hin : a + 1 ≤ x ∧ x < a + 1 + vs.length
      · have h2 : a ≤ x ∧ x < a + (v :: vs).length := ⟨by omega, by simp; omega⟩
        rw [if_pos hin, if_pos h2]
        have e : x - a = (x - (a + 1)) + 1 := by omega
        rw [e]
        simp
      · have h2 : ¬ (a ≤ x ∧ x < a + (v :: vs).length) := by simp; omega
        rw [if_neg hin, if_neg h2, if_neg hxa]

/-- All that `MemWrite` can do: the addresses exist, the size stays, the bytes written read back and every other
byte is as before. -/
theorem Memory.writeBytes_spec {m m' : Memory} {a : Nat} {bs : List Byte} (hm : m.wf = true)
    (h : m.writeBytes a bs = some m') :
    a + bs.length ≤ m.size ∧ m'.size = m.size ∧ m'.wf = true ∧
      ∀ x, m'.read x = if a ≤ x ∧ x < a + bs.length then bs.getD (x - a) 0 else m.read x := by
  unfold Memory.writeBytes at h
  split at h
  · next hs =>
    cases h
    exact ⟨hs, Memory.size_writeList bs m a, Memory.wf_writeList bs m a hm hs,
      fun x => Memory.read_writeList bs m a x hm hs⟩
  · cases h

theorem Memory.wf_append {m : Memory} (hm : m.wf = true) (bs : List Byte) : (m.append bs).wf = true :=
  cellsOk_append (cellsOf_ok m.size bs (m.size + bs.length) (by omega)) (by omega) 0 m.cells hm (by omega)

theorem Memory.read_append {m : Memory} (hm : m.wf = true) (bs : List Byte) (a : Nat) :
    (m.append bs).read a = if a < m.size then m.read a else bs.getD (a - m.size) 0 := by
  have hb := cellRead_below _ (cellsOf_ok m.size bs (m.size + bs.length) (by omega))
  split
  · next h => exact cellRead_append_left hb a h m.cells
  · next h =>
    have e : a = m.size + (a - m.size) := by omega
    have h1 : (m.append bs).read a = cellRead (cellsOf m.size bs) a :=
      cellRead_append_right _ a (by omega) 0 m.cells hm
    rw [h1]
    conv_lhs => rw [e]
    exact cellRead_cellsOf m.size bs (a - m.size)

/-- Appending is concatenation (20_memory.md R56). -/
theorem Memory.bytes_append {m : Memory} (hm : m.wf = true) (bs : List Byte) :
    (m.append bs).bytes = m.bytes ++ bs := by
  apply List.ext_getElem
  · simp
  · intro i h1 h2
    simp only [Memory.length_bytes, Memory.size_append] at h1
    by_cases h : i < m.size
    · rw [List.getElem_append_left (by simpa using h)]
      simp [Memory.bytes, Memory.read_append hm, h]
    · rw [List.getElem_append_right (by simpa using h)]
      have h3 : i - m.size < bs.length := by omega
      simp [Memory.bytes, Memory.read_append hm, h, h3]

/-- Spaces in canonical form that hold the same bytes are the same data. -/
theorem cells_ext {size : Nat} : ∀ lo cs ds, cellsOk size lo cs = true → cellsOk size lo ds = true →
    (∀ a, cellRead cs a = cellRead ds a) → cs = ds
  | _, [], [], _, _, _ => rfl
  | lo, [], (k, b) :: ds, _, hd, h => by
    simp only [cellsOk, Bool.and_eq_true, decide_eq_true_eq] at hd
    have := h k
    simp [cellRead] at this
    exact absurd this.symm hd.1.2
  | lo, (k, b) :: cs, [], hc, _, h => by
    simp only [cellsOk, Bool.and_eq_true, decide_eq_true_eq] at hc
    have := h k
    simp [cellRead] at this
    exact absurd this hc.1.2
  | lo, (k, b) :: cs, (k', b') :: ds, hc, hd, h => by
    simp only [cellsOk, Bool.and_eq_true, decide_eq_true_eq] at hc hd
    have hk : k = k' := by
      rcases Nat.lt_trichotomy k k' with hlt | he | hgt
      · have h1 := h k
        have h2 : k ≠ k' := by omega
        simp [cellRead, h2, cellRead_below ds hd.2 k (by omega)] at h1
        exact absurd h1 hc.1.2
      · exact he
      · have h1 := h k'
        have h2 : k' ≠ k := by omega
        simp [cellRead, h2, cellRead_below cs hc.2 k' (by omega)] at h1
        exact absurd h1.symm hd.1.2
    subst hk
    have hb : b = b' := by simpa [cellRead] using h k
    subst hb
    congr 1
    apply cells_ext (k + 1) cs ds hc.2 hd.2
    intro a
    by_cases ha : a = k
    · subst ha
      rw [cellRead_below cs hc.2 a (by omega), cellRead_below ds hd.2 a (by omega)]
    · simpa [cellRead, ha] using h a

/-- The form is canonical: equal sizes and equal bytes make equal data. -/
theorem Memory.ext_of_read {m n : Memory} (hm : m.wf = true) (hn : n.wf = true) (hs : m.size = n.size)
    (h : ∀ a, m.read a = n.read a) : m = n := by
  obtain ⟨ms, mc⟩ := m
  obtain ⟨ns, nc⟩ := n
  cases hs
  congr 1
  exact cells_ext 0 mc nc hm hn h

end Sys2Proof.Machine
end

