-- ==== Sys2Proof/Laws/State.lean ====
section
/-! SUPPORT. One lemma per field per update, for the shared updates of Machine/Ops.lean, so that no later proof unfolds a record
update. -/

namespace Sys2Proof.Machine

/-! ### presentDecimg -/

section
variable (f : FormatCode) (w h : Half) (n : Nat) (s : State)

@[simp] theorem presentDecimg_op : (presentDecimg f w h n s).op = .decimg := rfl
@[simp] theorem presentDecimg_fmt : (presentDecimg f w h n s).fmt = f := rfl
@[simp] theorem presentDecimg_w : (presentDecimg f w h n s).w = w := rfl
@[simp] theorem presentDecimg_h : (presentDecimg f w h n s).h = h := rfl
@[simp] theorem presentDecimg_plen : (presentDecimg f w h n s).plen = n := rfl
@[simp] theorem presentDecimg_blen : (presentDecimg f w h n s).blen = s.blen := rfl
@[simp] theorem presentDecimg_status : (presentDecimg f w h n s).status = s.status := rfl
@[simp] theorem presentDecimg_br : (presentDecimg f w h n s).br = s.br := rfl
@[simp] theorem presentDecimg_bc : (presentDecimg f w h n s).bc = s.bc := rfl
@[simp] theorem presentDecimg_bprow : (presentDecimg f w h n s).bprow = s.bprow := rfl
@[simp] theorem presentDecimg_bpcol : (presentDecimg f w h n s).bpcol = s.bpcol := rfl
@[simp] theorem presentDecimg_stride : (presentDecimg f w h n s).stride = s.stride := rfl
@[simp] theorem presentDecimg_phase : (presentDecimg f w h n s).phase = s.phase := rfl
@[simp] theorem presentDecimg_row : (presentDecimg f w h n s).row = s.row := rfl
@[simp] theorem presentDecimg_c0 : (presentDecimg f w h n s).c0 = s.c0 := rfl
@[simp] theorem presentDecimg_c1 : (presentDecimg f w h n s).c1 = s.c1 := rfl
@[simp] theorem presentDecimg_idx : (presentDecimg f w h n s).idx = s.idx := rfl
@[simp] theorem presentDecimg_a0 : (presentDecimg f w h n s).a0 = s.a0 := rfl
@[simp] theorem presentDecimg_a1 : (presentDecimg f w h n s).a1 = s.a1 := rfl
@[simp] theorem presentDecimg_abits : (presentDecimg f w h n s).abits = s.abits := rfl
@[simp] theorem presentDecimg_e0 : (presentDecimg f w h n s).e0 = s.e0 := rfl
@[simp] theorem presentDecimg_e1 : (presentDecimg f w h n s).e1 = s.e1 := rfl
@[simp] theorem presentDecimg_mode4 : (presentDecimg f w h n s).mode4 = s.mode4 := rfl
@[simp] theorem presentDecimg_amode8 : (presentDecimg f w h n s).amode8 = s.amode8 := rfl
@[simp] theorem presentDecimg_pal : (presentDecimg f w h n s).pal = s.pal := rfl
@[simp] theorem presentDecimg_ramp : (presentDecimg f w h n s).ramp = s.ramp := rfl
@[simp] theorem presentDecimg_patch : (presentDecimg f w h n s).patch = s.patch := rfl
@[simp] theorem presentDecimg_crc : (presentDecimg f w h n s).crc = s.crc := rfl
@[simp] theorem presentDecimg_tag : (presentDecimg f w h n s).tag = s.tag := rfl
@[simp] theorem presentDecimg_dlen : (presentDecimg f w h n s).dlen = s.dlen := rfl
@[simp] theorem presentDecimg_pay : (presentDecimg f w h n s).pay = s.pay := rfl
@[simp] theorem presentDecimg_img : (presentDecimg f w h n s).img = s.img := rfl
@[simp] theorem presentDecimg_scan : (presentDecimg f w h n s).scan = s.scan := rfl
@[simp] theorem presentDecimg_z : (presentDecimg f w h n s).z = s.z := rfl
@[simp] theorem presentDecimg_out : (presentDecimg f w h n s).out = s.out := rfl
@[simp] theorem presentDecimg_pos : (presentDecimg f w h n s).pos = s.pos := rfl
@[simp] theorem presentDecimg_blk : (presentDecimg f w h n s).blk = s.blk := rfl
@[simp] theorem presentDecimg_res : (presentDecimg f w h n s).res = s.res := rfl
@[simp] theorem presentDecimg_config : (presentDecimg f w h n s).config = s.config := rfl

end

/-! ### presentEncfile -/

section
variable (w h : Half) (n : Nat) (s : State)

@[simp] theorem presentEncfile_op : (presentEncfile w h n s).op = .encfile := rfl
@[simp] theorem presentEncfile_fmt : (presentEncfile w h n s).fmt = s.fmt := rfl
@[simp] theorem presentEncfile_w : (presentEncfile w h n s).w = w := rfl
@[simp] theorem presentEncfile_h : (presentEncfile w h n s).h = h := rfl
@[simp] theorem presentEncfile_plen : (presentEncfile w h n s).plen = s.plen := rfl
@[simp] theorem presentEncfile_blen : (presentEncfile w h n s).blen = n := rfl
@[simp] theorem presentEncfile_status : (presentEncfile w h n s).status = s.status := rfl
@[simp] theorem presentEncfile_br : (presentEncfile w h n s).br = s.br := rfl
@[simp] theorem presentEncfile_bc : (presentEncfile w h n s).bc = s.bc := rfl
@[simp] theorem presentEncfile_bprow : (presentEncfile w h n s).bprow = s.bprow := rfl
@[simp] theorem presentEncfile_bpcol : (presentEncfile w h n s).bpcol = s.bpcol := rfl
@[simp] theorem presentEncfile_stride : (presentEncfile w h n s).stride = s.stride := rfl
@[simp] theorem presentEncfile_phase : (presentEncfile w h n s).phase = s.phase := rfl
@[simp] theorem presentEncfile_row : (presentEncfile w h n s).row = s.row := rfl
@[simp] theorem presentEncfile_c0 : (presentEncfile w h n s).c0 = s.c0 := rfl
@[simp] theorem presentEncfile_c1 : (presentEncfile w h n s).c1 = s.c1 := rfl
@[simp] theorem presentEncfile_idx : (presentEncfile w h n s).idx = s.idx := rfl
@[simp] theorem presentEncfile_a0 : (presentEncfile w h n s).a0 = s.a0 := rfl
@[simp] theorem presentEncfile_a1 : (presentEncfile w h n s).a1 = s.a1 := rfl
@[simp] theorem presentEncfile_abits : (presentEncfile w h n s).abits = s.abits := rfl
@[simp] theorem presentEncfile_e0 : (presentEncfile w h n s).e0 = s.e0 := rfl
@[simp] theorem presentEncfile_e1 : (presentEncfile w h n s).e1 = s.e1 := rfl
@[simp] theorem presentEncfile_mode4 : (presentEncfile w h n s).mode4 = s.mode4 := rfl
@[simp] theorem presentEncfile_amode8 : (presentEncfile w h n s).amode8 = s.amode8 := rfl
@[simp] theorem presentEncfile_pal : (presentEncfile w h n s).pal = s.pal := rfl
@[simp] theorem presentEncfile_ramp : (presentEncfile w h n s).ramp = s.ramp := rfl
@[simp] theorem presentEncfile_patch : (presentEncfile w h n s).patch = s.patch := rfl
@[simp] theorem presentEncfile_crc : (presentEncfile w h n s).crc = s.crc := rfl
@[simp] theorem presentEncfile_tag : (presentEncfile w h n s).tag = s.tag := rfl
@[simp] theorem presentEncfile_dlen : (presentEncfile w h n s).dlen = s.dlen := rfl
@[simp] theorem presentEncfile_pay : (presentEncfile w h n s).pay = s.pay := rfl
@[simp] theorem presentEncfile_img : (presentEncfile w h n s).img = s.img := rfl
@[simp] theorem presentEncfile_scan : (presentEncfile w h n s).scan = s.scan := rfl
@[simp] theorem presentEncfile_z : (presentEncfile w h n s).z = s.z := rfl
@[simp] theorem presentEncfile_out : (presentEncfile w h n s).out = s.out := rfl
@[simp] theorem presentEncfile_pos : (presentEncfile w h n s).pos = s.pos := rfl
@[simp] theorem presentEncfile_blk : (presentEncfile w h n s).blk = s.blk := rfl
@[simp] theorem presentEncfile_res : (presentEncfile w h n s).res = s.res := rfl
@[simp] theorem presentEncfile_config : (presentEncfile w h n s).config = s.config := rfl

end

/-! ### raise -/

section
variable (e : Status) (s : State)

@[simp] theorem raise_op : (raise e s).op = s.op := rfl
@[simp] theorem raise_fmt : (raise e s).fmt = s.fmt := rfl
@[simp] theorem raise_w : (raise e s).w = s.w := rfl
@[simp] theorem raise_h : (raise e s).h = s.h := rfl
@[simp] theorem raise_plen : (raise e s).plen = s.plen := rfl
@[simp] theorem raise_blen : (raise e s).blen = s.blen := rfl
@[simp] theorem raise_status : (raise e s).status = e := rfl
@[simp] theorem raise_br : (raise e s).br = s.br := rfl
@[simp] theorem raise_bc : (raise e s).bc = s.bc := rfl
@[simp] theorem raise_bprow : (raise e s).bprow = s.bprow := rfl
@[simp] theorem raise_bpcol : (raise e s).bpcol = s.bpcol := rfl
@[simp] theorem raise_stride : (raise e s).stride = s.stride := rfl
@[simp] theorem raise_phase : (raise e s).phase = s.phase := rfl
@[simp] theorem raise_row : (raise e s).row = s.row := rfl
@[simp] theorem raise_c0 : (raise e s).c0 = s.c0 := rfl
@[simp] theorem raise_c1 : (raise e s).c1 = s.c1 := rfl
@[simp] theorem raise_idx : (raise e s).idx = s.idx := rfl
@[simp] theorem raise_a0 : (raise e s).a0 = s.a0 := rfl
@[simp] theorem raise_a1 : (raise e s).a1 = s.a1 := rfl
@[simp] theorem raise_abits : (raise e s).abits = s.abits := rfl
@[simp] theorem raise_e0 : (raise e s).e0 = s.e0 := rfl
@[simp] theorem raise_e1 : (raise e s).e1 = s.e1 := rfl
@[simp] theorem raise_mode4 : (raise e s).mode4 = s.mode4 := rfl
@[simp] theorem raise_amode8 : (raise e s).amode8 = s.amode8 := rfl
@[simp] theorem raise_pal : (raise e s).pal = s.pal := rfl
@[simp] theorem raise_ramp : (raise e s).ramp = s.ramp := rfl
@[simp] theorem raise_patch : (raise e s).patch = s.patch := rfl
@[simp] theorem raise_crc : (raise e s).crc = s.crc := rfl
@[simp] theorem raise_tag : (raise e s).tag = s.tag := rfl
@[simp] theorem raise_dlen : (raise e s).dlen = s.dlen := rfl
@[simp] theorem raise_pay : (raise e s).pay = s.pay := rfl
@[simp] theorem raise_img : (raise e s).img = s.img := rfl
@[simp] theorem raise_scan : (raise e s).scan = s.scan := rfl
@[simp] theorem raise_z : (raise e s).z = s.z := rfl
@[simp] theorem raise_out : (raise e s).out = s.out := rfl
@[simp] theorem raise_pos : (raise e s).pos = .idle := rfl
@[simp] theorem raise_blk : (raise e s).blk = s.blk := rfl
@[simp] theorem raise_res : (raise e s).res = s.res := rfl
@[simp] theorem raise_config : (raise e s).config = s.config := rfl

end

/-! ### completeDecimg -/

section
variable (s : State)

@[simp] theorem completeDecimg_op : (completeDecimg s).op = s.op := rfl
@[simp] theorem completeDecimg_fmt : (completeDecimg s).fmt = s.fmt := rfl
@[simp] theorem completeDecimg_w : (completeDecimg s).w = s.w := rfl
@[simp] theorem completeDecimg_h : (completeDecimg s).h = s.h := rfl
@[simp] theorem completeDecimg_plen : (completeDecimg s).plen = s.plen := rfl
@[simp] theorem completeDecimg_blen : (completeDecimg s).blen = s.blen := rfl
@[simp] theorem completeDecimg_status : (completeDecimg s).status = .ok := rfl
@[simp] theorem completeDecimg_br : (completeDecimg s).br = s.br := rfl
@[simp] theorem completeDecimg_bc : (completeDecimg s).bc = s.bc := rfl
@[simp] theorem completeDecimg_bprow : (completeDecimg s).bprow = s.bprow := rfl
@[simp] theorem completeDecimg_bpcol : (completeDecimg s).bpcol = s.bpcol := rfl
@[simp] theorem completeDecimg_stride : (completeDecimg s).stride = s.stride := rfl
@[simp] theorem completeDecimg_phase : (completeDecimg s).phase = s.phase := rfl
@[simp] theorem completeDecimg_row : (completeDecimg s).row = s.row := rfl
@[simp] theorem completeDecimg_c0 : (completeDecimg s).c0 = s.c0 := rfl
@[simp] theorem completeDecimg_c1 : (completeDecimg s).c1 = s.c1 := rfl
@[simp] theorem completeDecimg_idx : (completeDecimg s).idx = s.idx := rfl
@[simp] theorem completeDecimg_a0 : (completeDecimg s).a0 = s.a0 := rfl
@[simp] theorem completeDecimg_a1 : (completeDecimg s).a1 = s.a1 := rfl
@[simp] theorem completeDecimg_abits : (completeDecimg s).abits = s.abits := rfl
@[simp] theorem completeDecimg_e0 : (completeDecimg s).e0 = s.e0 := rfl
@[simp] theorem completeDecimg_e1 : (completeDecimg s).e1 = s.e1 := rfl
@[simp] theorem completeDecimg_mode4 : (completeDecimg s).mode4 = s.mode4 := rfl
@[simp] theorem completeDecimg_amode8 : (completeDecimg s).amode8 = s.amode8 := rfl
@[simp] theorem completeDecimg_pal : (completeDecimg s).pal = s.pal := rfl
@[simp] theorem completeDecimg_ramp : (completeDecimg s).ramp = s.ramp := rfl
@[simp] theorem completeDecimg_patch : (completeDecimg s).patch = s.patch := rfl
@[simp] theorem completeDecimg_crc : (completeDecimg s).crc = s.crc := rfl
@[simp] theorem completeDecimg_tag : (completeDecimg s).tag = s.tag := rfl
@[simp] theorem completeDecimg_dlen : (completeDecimg s).dlen = s.dlen := rfl
@[simp] theorem completeDecimg_pay : (completeDecimg s).pay = s.pay := rfl
@[simp] theorem completeDecimg_img : (completeDecimg s).img = s.img := rfl
@[simp] theorem completeDecimg_scan : (completeDecimg s).scan = s.scan := rfl
@[simp] theorem completeDecimg_z : (completeDecimg s).z = s.z := rfl
@[simp] theorem completeDecimg_out : (completeDecimg s).out = s.out := rfl
@[simp] theorem completeDecimg_pos : (completeDecimg s).pos = .idle := rfl
@[simp] theorem completeDecimg_blk : (completeDecimg s).blk = s.blk := rfl
@[simp] theorem completeDecimg_res : (completeDecimg s).res = s.res := rfl
@[simp] theorem completeDecimg_config : (completeDecimg s).config = s.config := rfl

end

/-! ### beginEncfile -/

section
variable (s : State)

@[simp] theorem beginEncfile_op : (beginEncfile s).op = s.op := rfl
@[simp] theorem beginEncfile_fmt : (beginEncfile s).fmt = s.fmt := rfl
@[simp] theorem beginEncfile_w : (beginEncfile s).w = s.w := rfl
@[simp] theorem beginEncfile_h : (beginEncfile s).h = s.h := rfl
@[simp] theorem beginEncfile_plen : (beginEncfile s).plen = s.plen := rfl
@[simp] theorem beginEncfile_blen : (beginEncfile s).blen = s.blen := rfl
@[simp] theorem beginEncfile_status : (beginEncfile s).status = s.status := rfl
@[simp] theorem beginEncfile_br : (beginEncfile s).br = s.br := rfl
@[simp] theorem beginEncfile_bc : (beginEncfile s).bc = s.bc := rfl
@[simp] theorem beginEncfile_bprow : (beginEncfile s).bprow = s.bprow := rfl
@[simp] theorem beginEncfile_bpcol : (beginEncfile s).bpcol = s.bpcol := rfl
@[simp] theorem beginEncfile_stride : (beginEncfile s).stride = s.stride := rfl
@[simp] theorem beginEncfile_phase : (beginEncfile s).phase = .sig := rfl
@[simp] theorem beginEncfile_row : (beginEncfile s).row = s.row := rfl
@[simp] theorem beginEncfile_c0 : (beginEncfile s).c0 = s.c0 := rfl
@[simp] theorem beginEncfile_c1 : (beginEncfile s).c1 = s.c1 := rfl
@[simp] theorem beginEncfile_idx : (beginEncfile s).idx = s.idx := rfl
@[simp] theorem beginEncfile_a0 : (beginEncfile s).a0 = s.a0 := rfl
@[simp] theorem beginEncfile_a1 : (beginEncfile s).a1 = s.a1 := rfl
@[simp] theorem beginEncfile_abits : (beginEncfile s).abits = s.abits := rfl
@[simp] theorem beginEncfile_e0 : (beginEncfile s).e0 = s.e0 := rfl
@[simp] theorem beginEncfile_e1 : (beginEncfile s).e1 = s.e1 := rfl
@[simp] theorem beginEncfile_mode4 : (beginEncfile s).mode4 = s.mode4 := rfl
@[simp] theorem beginEncfile_amode8 : (beginEncfile s).amode8 = s.amode8 := rfl
@[simp] theorem beginEncfile_pal : (beginEncfile s).pal = s.pal := rfl
@[simp] theorem beginEncfile_ramp : (beginEncfile s).ramp = s.ramp := rfl
@[simp] theorem beginEncfile_patch : (beginEncfile s).patch = s.patch := rfl
@[simp] theorem beginEncfile_crc : (beginEncfile s).crc = s.crc := rfl
@[simp] theorem beginEncfile_tag : (beginEncfile s).tag = s.tag := rfl
@[simp] theorem beginEncfile_dlen : (beginEncfile s).dlen = s.dlen := rfl
@[simp] theorem beginEncfile_pay : (beginEncfile s).pay = s.pay := rfl
@[simp] theorem beginEncfile_img : (beginEncfile s).img = s.img := rfl
@[simp] theorem beginEncfile_scan : (beginEncfile s).scan = s.scan := rfl
@[simp] theorem beginEncfile_z : (beginEncfile s).z = s.z := rfl
@[simp] theorem beginEncfile_out : (beginEncfile s).out = Memory.empty := rfl
@[simp] theorem beginEncfile_pos : (beginEncfile s).pos = s.pos := rfl
@[simp] theorem beginEncfile_blk : (beginEncfile s).blk = s.blk := rfl
@[simp] theorem beginEncfile_res : (beginEncfile s).res = s.res := rfl
@[simp] theorem beginEncfile_config : (beginEncfile s).config = s.config := rfl

end

/-! ### enterPhase -/

section
variable (p : Phase) (s : State)

@[simp] theorem enterPhase_op : (enterPhase p s).op = s.op := rfl
@[simp] theorem enterPhase_fmt : (enterPhase p s).fmt = s.fmt := rfl
@[simp] theorem enterPhase_w : (enterPhase p s).w = s.w := rfl
@[simp] theorem enterPhase_h : (enterPhase p s).h = s.h := rfl
@[simp] theorem enterPhase_plen : (enterPhase p s).plen = s.plen := rfl
@[simp] theorem enterPhase_blen : (enterPhase p s).blen = s.blen := rfl
@[simp] theorem enterPhase_status : (enterPhase p s).status = s.status := rfl
@[simp] theorem enterPhase_br : (enterPhase p s).br = s.br := rfl
@[simp] theorem enterPhase_bc : (enterPhase p s).bc = s.bc := rfl
@[simp] theorem enterPhase_bprow : (enterPhase p s).bprow = s.bprow := rfl
@[simp] theorem enterPhase_bpcol : (enterPhase p s).bpcol = s.bpcol := rfl
@[simp] theorem enterPhase_stride : (enterPhase p s).stride = s.stride := rfl
@[simp] theorem enterPhase_phase : (enterPhase p s).phase = p := rfl
@[simp] theorem enterPhase_row : (enterPhase p s).row = s.row := rfl
@[simp] theorem enterPhase_c0 : (enterPhase p s).c0 = s.c0 := rfl
@[simp] theorem enterPhase_c1 : (enterPhase p s).c1 = s.c1 := rfl
@[simp] theorem enterPhase_idx : (enterPhase p s).idx = s.idx := rfl
@[simp] theorem enterPhase_a0 : (enterPhase p s).a0 = s.a0 := rfl
@[simp] theorem enterPhase_a1 : (enterPhase p s).a1 = s.a1 := rfl
@[simp] theorem enterPhase_abits : (enterPhase p s).abits = s.abits := rfl
@[simp] theorem enterPhase_e0 : (enterPhase p s).e0 = s.e0 := rfl
@[simp] theorem enterPhase_e1 : (enterPhase p s).e1 = s.e1 := rfl
@[simp] theorem enterPhase_mode4 : (enterPhase p s).mode4 = s.mode4 := rfl
@[simp] theorem enterPhase_amode8 : (enterPhase p s).amode8 = s.amode8 := rfl
@[simp] theorem enterPhase_pal : (enterPhase p s).pal = s.pal := rfl
@[simp] theorem enterPhase_ramp : (enterPhase p s).ramp = s.ramp := rfl
@[simp] theorem enterPhase_patch : (enterPhase p s).patch = s.patch := rfl
@[simp] theorem enterPhase_crc : (enterPhase p s).crc = s.crc := rfl
@[simp] theorem enterPhase_tag : (enterPhase p s).tag = s.tag := rfl
@[simp] theorem enterPhase_dlen : (enterPhase p s).dlen = s.dlen := rfl
@[simp] theorem enterPhase_pay : (enterPhase p s).pay = s.pay := rfl
@[simp] theorem enterPhase_img : (enterPhase p s).img = s.img := rfl
@[simp] theorem enterPhase_scan : (enterPhase p s).scan = s.scan := rfl
@[simp] theorem enterPhase_z : (enterPhase p s).z = s.z := rfl
@[simp] theorem enterPhase_out : (enterPhase p s).out = s.out := rfl
@[simp] theorem enterPhase_pos : (enterPhase p s).pos = s.pos := rfl
@[simp] theorem enterPhase_blk : (enterPhase p s).blk = s.blk := rfl
@[simp] theorem enterPhase_res : (enterPhase p s).res = s.res := rfl
@[simp] theorem enterPhase_config : (enterPhase p s).config = s.config := rfl

end

/-! ### completeEncfile -/

section
variable (s : State)

@[simp] theorem completeEncfile_op : (completeEncfile s).op = s.op := rfl
@[simp] theorem completeEncfile_fmt : (completeEncfile s).fmt = s.fmt := rfl
@[simp] theorem completeEncfile_w : (completeEncfile s).w = s.w := rfl
@[simp] theorem completeEncfile_h : (completeEncfile s).h = s.h := rfl
@[simp] theorem completeEncfile_plen : (completeEncfile s).plen = s.plen := rfl
@[simp] theorem completeEncfile_blen : (completeEncfile s).blen = s.blen := rfl
@[simp] theorem completeEncfile_status : (completeEncfile s).status = .ok := rfl
@[simp] theorem completeEncfile_br : (completeEncfile s).br = s.br := rfl
@[simp] theorem completeEncfile_bc : (completeEncfile s).bc = s.bc := rfl
@[simp] theorem completeEncfile_bprow : (completeEncfile s).bprow = s.bprow := rfl
@[simp] theorem completeEncfile_bpcol : (completeEncfile s).bpcol = s.bpcol := rfl
@[simp] theorem completeEncfile_stride : (completeEncfile s).stride = s.stride := rfl
@[simp] theorem completeEncfile_phase : (completeEncfile s).phase = .done := rfl
@[simp] theorem completeEncfile_row : (completeEncfile s).row = s.row := rfl
@[simp] theorem completeEncfile_c0 : (completeEncfile s).c0 = s.c0 := rfl
@[simp] theorem completeEncfile_c1 : (completeEncfile s).c1 = s.c1 := rfl
@[simp] theorem completeEncfile_idx : (completeEncfile s).idx = s.idx := rfl
@[simp] theorem completeEncfile_a0 : (completeEncfile s).a0 = s.a0 := rfl
@[simp] theorem completeEncfile_a1 : (completeEncfile s).a1 = s.a1 := rfl
@[simp] theorem completeEncfile_abits : (completeEncfile s).abits = s.abits := rfl
@[simp] theorem completeEncfile_e0 : (completeEncfile s).e0 = s.e0 := rfl
@[simp] theorem completeEncfile_e1 : (completeEncfile s).e1 = s.e1 := rfl
@[simp] theorem completeEncfile_mode4 : (completeEncfile s).mode4 = s.mode4 := rfl
@[simp] theorem completeEncfile_amode8 : (completeEncfile s).amode8 = s.amode8 := rfl
@[simp] theorem completeEncfile_pal : (completeEncfile s).pal = s.pal := rfl
@[simp] theorem completeEncfile_ramp : (completeEncfile s).ramp = s.ramp := rfl
@[simp] theorem completeEncfile_patch : (completeEncfile s).patch = s.patch := rfl
@[simp] theorem completeEncfile_crc : (completeEncfile s).crc = s.crc := rfl
@[simp] theorem completeEncfile_tag : (completeEncfile s).tag = s.tag := rfl
@[simp] theorem completeEncfile_dlen : (completeEncfile s).dlen = s.dlen := rfl
@[simp] theorem completeEncfile_pay : (completeEncfile s).pay = s.pay := rfl
@[simp] theorem completeEncfile_img : (completeEncfile s).img = s.img := rfl
@[simp] theorem completeEncfile_scan : (completeEncfile s).scan = s.scan := rfl
@[simp] theorem completeEncfile_z : (completeEncfile s).z = s.z := rfl
@[simp] theorem completeEncfile_out : (completeEncfile s).out = s.out := rfl
@[simp] theorem completeEncfile_pos : (completeEncfile s).pos = .idle := rfl
@[simp] theorem completeEncfile_blk : (completeEncfile s).blk = s.blk := rfl
@[simp] theorem completeEncfile_res : (completeEncfile s).res = s.res := rfl
@[simp] theorem completeEncfile_config : (completeEncfile s).config = s.config := rfl

end

/-! ### emit -/

section
variable (bs : List Byte) (s : State)

@[simp] theorem emit_op : (emit bs s).op = s.op := rfl
@[simp] theorem emit_fmt : (emit bs s).fmt = s.fmt := rfl
@[simp] theorem emit_w : (emit bs s).w = s.w := rfl
@[simp] theorem emit_h : (emit bs s).h = s.h := rfl
@[simp] theorem emit_plen : (emit bs s).plen = s.plen := rfl
@[simp] theorem emit_blen : (emit bs s).blen = s.blen := rfl
@[simp] theorem emit_status : (emit bs s).status = s.status := rfl
@[simp] theorem emit_br : (emit bs s).br = s.br := rfl
@[simp] theorem emit_bc : (emit bs s).bc = s.bc := rfl
@[simp] theorem emit_bprow : (emit bs s).bprow = s.bprow := rfl
@[simp] theorem emit_bpcol : (emit bs s).bpcol = s.bpcol := rfl
@[simp] theorem emit_stride : (emit bs s).stride = s.stride := rfl
@[simp] theorem emit_phase : (emit bs s).phase = s.phase := rfl
@[simp] theorem emit_row : (emit bs s).row = s.row := rfl
@[simp] theorem emit_c0 : (emit bs s).c0 = s.c0 := rfl
@[simp] theorem emit_c1 : (emit bs s).c1 = s.c1 := rfl
@[simp] theorem emit_idx : (emit bs s).idx = s.idx := rfl
@[simp] theorem emit_a0 : (emit bs s).a0 = s.a0 := rfl
@[simp] theorem emit_a1 : (emit bs s).a1 = s.a1 := rfl
@[simp] theorem emit_abits : (emit bs s).abits = s.abits := rfl
@[simp] theorem emit_e0 : (emit bs s).e0 = s.e0 := rfl
@[simp] theorem emit_e1 : (emit bs s).e1 = s.e1 := rfl
@[simp] theorem emit_mode4 : (emit bs s).mode4 = s.mode4 := rfl
@[simp] theorem emit_amode8 : (emit bs s).amode8 = s.amode8 := rfl
@[simp] theorem emit_pal : (emit bs s).pal = s.pal := rfl
@[simp] theorem emit_ramp : (emit bs s).ramp = s.ramp := rfl
@[simp] theorem emit_patch : (emit bs s).patch = s.patch := rfl
@[simp] theorem emit_crc : (emit bs s).crc = s.crc := rfl
@[simp] theorem emit_tag : (emit bs s).tag = s.tag := rfl
@[simp] theorem emit_dlen : (emit bs s).dlen = s.dlen := rfl
@[simp] theorem emit_pay : (emit bs s).pay = s.pay := rfl
@[simp] theorem emit_img : (emit bs s).img = s.img := rfl
@[simp] theorem emit_scan : (emit bs s).scan = s.scan := rfl
@[simp] theorem emit_z : (emit bs s).z = s.z := rfl
@[simp] theorem emit_out : (emit bs s).out = s.out.append bs := rfl
@[simp] theorem emit_pos : (emit bs s).pos = s.pos := rfl
@[simp] theorem emit_blk : (emit bs s).blk = s.blk := rfl
@[simp] theorem emit_res : (emit bs s).res = s.res := rfl
@[simp] theorem emit_config : (emit bs s).config = s.config := rfl

end

/-! ### goTo -/

section
variable (p : Position) (s : State)

@[simp] theorem goTo_op : (goTo p s).op = s.op := rfl
@[simp] theorem goTo_fmt : (goTo p s).fmt = s.fmt := rfl
@[simp] theorem goTo_w : (goTo p s).w = s.w := rfl
@[simp] theorem goTo_h : (goTo p s).h = s.h := rfl
@[simp] theorem goTo_plen : (goTo p s).plen = s.plen := rfl
@[simp] theorem goTo_blen : (goTo p s).blen = s.blen := rfl
@[simp] theorem goTo_status : (goTo p s).status = s.status := rfl
@[simp] theorem goTo_br : (goTo p s).br = s.br := rfl
@[simp] theorem goTo_bc : (goTo p s).bc = s.bc := rfl
@[simp] theorem goTo_bprow : (goTo p s).bprow = s.bprow := rfl
@[simp] theorem goTo_bpcol : (goTo p s).bpcol = s.bpcol := rfl
@[simp] theorem goTo_stride : (goTo p s).stride = s.stride := rfl
@[simp] theorem goTo_phase : (goTo p s).phase = s.phase := rfl
@[simp] theorem goTo_row : (goTo p s).row = s.row := rfl
@[simp] theorem goTo_c0 : (goTo p s).c0 = s.c0 := rfl
@[simp] theorem goTo_c1 : (goTo p s).c1 = s.c1 := rfl
@[simp] theorem goTo_idx : (goTo p s).idx = s.idx := rfl
@[simp] theorem goTo_a0 : (goTo p s).a0 = s.a0 := rfl
@[simp] theorem goTo_a1 : (goTo p s).a1 = s.a1 := rfl
@[simp] theorem goTo_abits : (goTo p s).abits = s.abits := rfl
@[simp] theorem goTo_e0 : (goTo p s).e0 = s.e0 := rfl
@[simp] theorem goTo_e1 : (goTo p s).e1 = s.e1 := rfl
@[simp] theorem goTo_mode4 : (goTo p s).mode4 = s.mode4 := rfl
@[simp] theorem goTo_amode8 : (goTo p s).amode8 = s.amode8 := rfl
@[simp] theorem goTo_pal : (goTo p s).pal = s.pal := rfl
@[simp] theorem goTo_ramp : (goTo p s).ramp = s.ramp := rfl
@[simp] theorem goTo_patch : (goTo p s).patch = s.patch := rfl
@[simp] theorem goTo_crc : (goTo p s).crc = s.crc := rfl
@[simp] theorem goTo_tag : (goTo p s).tag = s.tag := rfl
@[simp] theorem goTo_dlen : (goTo p s).dlen = s.dlen := rfl
@[simp] theorem goTo_pay : (goTo p s).pay = s.pay := rfl
@[simp] theorem goTo_img : (goTo p s).img = s.img := rfl
@[simp] theorem goTo_scan : (goTo p s).scan = s.scan := rfl
@[simp] theorem goTo_z : (goTo p s).z = s.z := rfl
@[simp] theorem goTo_out : (goTo p s).out = s.out := rfl
@[simp] theorem goTo_pos : (goTo p s).pos = p := rfl
@[simp] theorem goTo_blk : (goTo p s).blk = s.blk := rfl
@[simp] theorem goTo_res : (goTo p s).res = s.res := rfl
@[simp] theorem goTo_config : (goTo p s).config = s.config := rfl

end

/-! ### answer -/

section
variable (r : Result) (s : State)

@[simp] theorem answer_op : (answer r s).op = s.op := rfl
@[simp] theorem answer_fmt : (answer r s).fmt = s.fmt := rfl
@[simp] theorem answer_w : (answer r s).w = s.w := rfl
@[simp] theorem answer_h : (answer r s).h = s.h := rfl
@[simp] theorem answer_plen : (answer r s).plen = s.plen := rfl
@[simp] theorem answer_blen : (answer r s).blen = s.blen := rfl
@[simp] theorem answer_status : (answer r s).status = s.status := rfl
@[simp] theorem answer_br : (answer r s).br = s.br := rfl
@[simp] theorem answer_bc : (answer r s).bc = s.bc := rfl
@[simp] theorem answer_bprow : (answer r s).bprow = s.bprow := rfl
@[simp] theorem answer_bpcol : (answer r s).bpcol = s.bpcol := rfl
@[simp] theorem answer_stride : (answer r s).stride = s.stride := rfl
@[simp] theorem answer_phase : (answer r s).phase = s.phase := rfl
@[simp] theorem answer_row : (answer r s).row = s.row := rfl
@[simp] theorem answer_c0 : (answer r s).c0 = s.c0 := rfl
@[simp] theorem answer_c1 : (answer r s).c1 = s.c1 := rfl
@[simp] theorem answer_idx : (answer r s).idx = s.idx := rfl
@[simp] theorem answer_a0 : (answer r s).a0 = s.a0 := rfl
@[simp] theorem answer_a1 : (answer r s).a1 = s.a1 := rfl
@[simp] theorem answer_abits : (answer r s).abits = s.abits := rfl
@[simp] theorem answer_e0 : (answer r s).e0 = s.e0 := rfl
@[simp] theorem answer_e1 : (answer r s).e1 = s.e1 := rfl
@[simp] theorem answer_mode4 : (answer r s).mode4 = s.mode4 := rfl
@[simp] theorem answer_amode8 : (answer r s).amode8 = s.amode8 := rfl
@[simp] theorem answer_pal : (answer r s).pal = s.pal := rfl
@[simp] theorem answer_ramp : (answer r s).ramp = s.ramp := rfl
@[simp] theorem answer_patch : (answer r s).patch = s.patch := rfl
@[simp] theorem answer_crc : (answer r s).crc = s.crc := rfl
@[simp] theorem answer_tag : (answer r s).tag = s.tag := rfl
@[simp] theorem answer_dlen : (answer r s).dlen = s.dlen := rfl
@[simp] theorem answer_pay : (answer r s).pay = s.pay := rfl
@[simp] theorem answer_img : (answer r s).img = s.img := rfl
@[simp] theorem answer_scan : (answer r s).scan = s.scan := rfl
@[simp] theorem answer_z : (answer r s).z = s.z := rfl
@[simp] theorem answer_out : (answer r s).out = s.out := rfl
@[simp] theorem answer_pos : (answer r s).pos = s.pos := rfl
@[simp] theorem answer_blk : (answer r s).blk = s.blk := rfl
@[simp] theorem answer_res : (answer r s).res = r := rfl
@[simp] theorem answer_config : (answer r s).config = s.config := rfl

end

end Sys2Proof.Machine
end

