-- ==== Sys2Proof/Laws/Updates.lean ====
section
/-! SUPPORT. One lemma per field per update, for the working updates of the block decoders, the assembler and the chunk, so that no later proof unfolds a record
update. -/

namespace Sys2Proof.Machine

/-! ### loadColor -/

section
variable (x y : Half) (v : Word) (s : State)

@[simp] theorem loadColor_op : (loadColor x y v s).op = s.op := rfl
@[simp] theorem loadColor_fmt : (loadColor x y v s).fmt = s.fmt := rfl
@[simp] theorem loadColor_w : (loadColor x y v s).w = s.w := rfl
@[simp] theorem loadColor_h : (loadColor x y v s).h = s.h := rfl
@[simp] theorem loadColor_plen : (loadColor x y v s).plen = s.plen := rfl
@[simp] theorem loadColor_blen : (loadColor x y v s).blen = s.blen := rfl
@[simp] theorem loadColor_status : (loadColor x y v s).status = s.status := rfl
@[simp] theorem loadColor_br : (loadColor x y v s).br = s.br := rfl
@[simp] theorem loadColor_bc : (loadColor x y v s).bc = s.bc := rfl
@[simp] theorem loadColor_bprow : (loadColor x y v s).bprow = s.bprow := rfl
@[simp] theorem loadColor_bpcol : (loadColor x y v s).bpcol = s.bpcol := rfl
@[simp] theorem loadColor_stride : (loadColor x y v s).stride = s.stride := rfl
@[simp] theorem loadColor_phase : (loadColor x y v s).phase = s.phase := rfl
@[simp] theorem loadColor_row : (loadColor x y v s).row = s.row := rfl
@[simp] theorem loadColor_c0 : (loadColor x y v s).c0 = x := rfl
@[simp] theorem loadColor_c1 : (loadColor x y v s).c1 = y := rfl
@[simp] theorem loadColor_idx : (loadColor x y v s).idx = v := rfl
@[simp] theorem loadColor_a0 : (loadColor x y v s).a0 = s.a0 := rfl
@[simp] theorem loadColor_a1 : (loadColor x y v s).a1 = s.a1 := rfl
@[simp] theorem loadColor_abits : (loadColor x y v s).abits = s.abits := rfl
@[simp] theorem loadColor_e0 : (loadColor x y v s).e0 = s.e0 := rfl
@[simp] theorem loadColor_e1 : (loadColor x y v s).e1 = s.e1 := rfl
@[simp] theorem loadColor_mode4 : (loadColor x y v s).mode4 = s.mode4 := rfl
@[simp] theorem loadColor_amode8 : (loadColor x y v s).amode8 = s.amode8 := rfl
@[simp] theorem loadColor_pal : (loadColor x y v s).pal = s.pal := rfl
@[simp] theorem loadColor_ramp : (loadColor x y v s).ramp = s.ramp := rfl
@[simp] theorem loadColor_patch : (loadColor x y v s).patch = s.patch := rfl
@[simp] theorem loadColor_crc : (loadColor x y v s).crc = s.crc := rfl
@[simp] theorem loadColor_tag : (loadColor x y v s).tag = s.tag := rfl
@[simp] theorem loadColor_dlen : (loadColor x y v s).dlen = s.dlen := rfl
@[simp] theorem loadColor_pay : (loadColor x y v s).pay = s.pay := rfl
@[simp] theorem loadColor_img : (loadColor x y v s).img = s.img := rfl
@[simp] theorem loadColor_scan : (loadColor x y v s).scan = s.scan := rfl
@[simp] theorem loadColor_z : (loadColor x y v s).z = s.z := rfl
@[simp] theorem loadColor_out : (loadColor x y v s).out = s.out := rfl
@[simp] theorem loadColor_pos : (loadColor x y v s).pos = s.pos := rfl
@[simp] theorem loadColor_blk : (loadColor x y v s).blk = s.blk := rfl
@[simp] theorem loadColor_res : (loadColor x y v s).res = s.res := rfl
@[simp] theorem loadColor_config : (loadColor x y v s).config = s.config := rfl

end

/-! ### cmp16 -/

section
variable (s : State)

@[simp] theorem cmp16_op : (cmp16 s).op = s.op := rfl
@[simp] theorem cmp16_fmt : (cmp16 s).fmt = s.fmt := rfl
@[simp] theorem cmp16_w : (cmp16 s).w = s.w := rfl
@[simp] theorem cmp16_h : (cmp16 s).h = s.h := rfl
@[simp] theorem cmp16_plen : (cmp16 s).plen = s.plen := rfl
@[simp] theorem cmp16_blen : (cmp16 s).blen = s.blen := rfl
@[simp] theorem cmp16_status : (cmp16 s).status = s.status := rfl
@[simp] theorem cmp16_br : (cmp16 s).br = s.br := rfl
@[simp] theorem cmp16_bc : (cmp16 s).bc = s.bc := rfl
@[simp] theorem cmp16_bprow : (cmp16 s).bprow = s.bprow := rfl
@[simp] theorem cmp16_bpcol : (cmp16 s).bpcol = s.bpcol := rfl
@[simp] theorem cmp16_stride : (cmp16 s).stride = s.stride := rfl
@[simp] theorem cmp16_phase : (cmp16 s).phase = s.phase := rfl
@[simp] theorem cmp16_row : (cmp16 s).row = s.row := rfl
@[simp] theorem cmp16_c0 : (cmp16 s).c0 = s.c0 := rfl
@[simp] theorem cmp16_c1 : (cmp16 s).c1 = s.c1 := rfl
@[simp] theorem cmp16_idx : (cmp16 s).idx = s.idx := rfl
@[simp] theorem cmp16_a0 : (cmp16 s).a0 = s.a0 := rfl
@[simp] theorem cmp16_a1 : (cmp16 s).a1 = s.a1 := rfl
@[simp] theorem cmp16_abits : (cmp16 s).abits = s.abits := rfl
@[simp] theorem cmp16_e0 : (cmp16 s).e0 = s.e0 := rfl
@[simp] theorem cmp16_e1 : (cmp16 s).e1 = s.e1 := rfl
@[simp] theorem cmp16_mode4 : (cmp16 s).mode4 = mode4Of s.c0 s.c1 := rfl
@[simp] theorem cmp16_amode8 : (cmp16 s).amode8 = s.amode8 := rfl
@[simp] theorem cmp16_pal : (cmp16 s).pal = s.pal := rfl
@[simp] theorem cmp16_ramp : (cmp16 s).ramp = s.ramp := rfl
@[simp] theorem cmp16_patch : (cmp16 s).patch = s.patch := rfl
@[simp] theorem cmp16_crc : (cmp16 s).crc = s.crc := rfl
@[simp] theorem cmp16_tag : (cmp16 s).tag = s.tag := rfl
@[simp] theorem cmp16_dlen : (cmp16 s).dlen = s.dlen := rfl
@[simp] theorem cmp16_pay : (cmp16 s).pay = s.pay := rfl
@[simp] theorem cmp16_img : (cmp16 s).img = s.img := rfl
@[simp] theorem cmp16_scan : (cmp16 s).scan = s.scan := rfl
@[simp] theorem cmp16_z : (cmp16 s).z = s.z := rfl
@[simp] theorem cmp16_out : (cmp16 s).out = s.out := rfl
@[simp] theorem cmp16_pos : (cmp16 s).pos = s.pos := rfl
@[simp] theorem cmp16_blk : (cmp16 s).blk = s.blk := rfl
@[simp] theorem cmp16_res : (cmp16 s).res = s.res := rfl
@[simp] theorem cmp16_config : (cmp16 s).config = s.config := rfl

end

/-! ### palBase -/

section
variable (s : State)

@[simp] theorem palBase_op : (palBase s).op = s.op := rfl
@[simp] theorem palBase_fmt : (palBase s).fmt = s.fmt := rfl
@[simp] theorem palBase_w : (palBase s).w = s.w := rfl
@[simp] theorem palBase_h : (palBase s).h = s.h := rfl
@[simp] theorem palBase_plen : (palBase s).plen = s.plen := rfl
@[simp] theorem palBase_blen : (palBase s).blen = s.blen := rfl
@[simp] theorem palBase_status : (palBase s).status = s.status := rfl
@[simp] theorem palBase_br : (palBase s).br = s.br := rfl
@[simp] theorem palBase_bc : (palBase s).bc = s.bc := rfl
@[simp] theorem palBase_bprow : (palBase s).bprow = s.bprow := rfl
@[simp] theorem palBase_bpcol : (palBase s).bpcol = s.bpcol := rfl
@[simp] theorem palBase_stride : (palBase s).stride = s.stride := rfl
@[simp] theorem palBase_phase : (palBase s).phase = s.phase := rfl
@[simp] theorem palBase_row : (palBase s).row = s.row := rfl
@[simp] theorem palBase_c0 : (palBase s).c0 = s.c0 := rfl
@[simp] theorem palBase_c1 : (palBase s).c1 = s.c1 := rfl
@[simp] theorem palBase_idx : (palBase s).idx = s.idx := rfl
@[simp] theorem palBase_a0 : (palBase s).a0 = s.a0 := rfl
@[simp] theorem palBase_a1 : (palBase s).a1 = s.a1 := rfl
@[simp] theorem palBase_abits : (palBase s).abits = s.abits := rfl
@[simp] theorem palBase_e0 : (palBase s).e0 = endpoint s.c0 := rfl
@[simp] theorem palBase_e1 : (palBase s).e1 = endpoint s.c1 := rfl
@[simp] theorem palBase_mode4 : (palBase s).mode4 = s.mode4 := rfl
@[simp] theorem palBase_amode8 : (palBase s).amode8 = s.amode8 := rfl
@[simp] theorem palBase_pal : (palBase s).pal = (s.pal.set 0 (endpoint s.c0).solid).set 1 (endpoint s.c1).solid := rfl
@[simp] theorem palBase_ramp : (palBase s).ramp = s.ramp := rfl
@[simp] theorem palBase_patch : (palBase s).patch = s.patch := rfl
@[simp] theorem palBase_crc : (palBase s).crc = s.crc := rfl
@[simp] theorem palBase_tag : (palBase s).tag = s.tag := rfl
@[simp] theorem palBase_dlen : (palBase s).dlen = s.dlen := rfl
@[simp] theorem palBase_pay : (palBase s).pay = s.pay := rfl
@[simp] theorem palBase_img : (palBase s).img = s.img := rfl
@[simp] theorem palBase_scan : (palBase s).scan = s.scan := rfl
@[simp] theorem palBase_z : (palBase s).z = s.z := rfl
@[simp] theorem palBase_out : (palBase s).out = s.out := rfl
@[simp] theorem palBase_pos : (palBase s).pos = s.pos := rfl
@[simp] theorem palBase_blk : (palBase s).blk = s.blk := rfl
@[simp] theorem palBase_res : (palBase s).res = s.res := rfl
@[simp] theorem palBase_config : (palBase s).config = s.config := rfl

end

/-! ### pal4 -/

section
variable (s : State)

@[simp] theorem pal4_op : (pal4 s).op = s.op := rfl
@[simp] theorem pal4_fmt : (pal4 s).fmt = s.fmt := rfl
@[simp] theorem pal4_w : (pal4 s).w = s.w := rfl
@[simp] theorem pal4_h : (pal4 s).h = s.h := rfl
@[simp] theorem pal4_plen : (pal4 s).plen = s.plen := rfl
@[simp] theorem pal4_blen : (pal4 s).blen = s.blen := rfl
@[simp] theorem pal4_status : (pal4 s).status = s.status := rfl
@[simp] theorem pal4_br : (pal4 s).br = s.br := rfl
@[simp] theorem pal4_bc : (pal4 s).bc = s.bc := rfl
@[simp] theorem pal4_bprow : (pal4 s).bprow = s.bprow := rfl
@[simp] theorem pal4_bpcol : (pal4 s).bpcol = s.bpcol := rfl
@[simp] theorem pal4_stride : (pal4 s).stride = s.stride := rfl
@[simp] theorem pal4_phase : (pal4 s).phase = s.phase := rfl
@[simp] theorem pal4_row : (pal4 s).row = s.row := rfl
@[simp] theorem pal4_c0 : (pal4 s).c0 = s.c0 := rfl
@[simp] theorem pal4_c1 : (pal4 s).c1 = s.c1 := rfl
@[simp] theorem pal4_idx : (pal4 s).idx = s.idx := rfl
@[simp] theorem pal4_a0 : (pal4 s).a0 = s.a0 := rfl
@[simp] theorem pal4_a1 : (pal4 s).a1 = s.a1 := rfl
@[simp] theorem pal4_abits : (pal4 s).abits = s.abits := rfl
@[simp] theorem pal4_e0 : (pal4 s).e0 = s.e0 := rfl
@[simp] theorem pal4_e1 : (pal4 s).e1 = s.e1 := rfl
@[simp] theorem pal4_mode4 : (pal4 s).mode4 = s.mode4 := rfl
@[simp] theorem pal4_amode8 : (pal4 s).amode8 = s.amode8 := rfl
@[simp] theorem pal4_pal : (pal4 s).pal = (s.pal.set 2 (Rgb.mix mixThird s.e0 s.e1).solid).set 3 (Rgb.mix mixThird s.e1 s.e0).solid := rfl
@[simp] theorem pal4_ramp : (pal4 s).ramp = s.ramp := rfl
@[simp] theorem pal4_patch : (pal4 s).patch = s.patch := rfl
@[simp] theorem pal4_crc : (pal4 s).crc = s.crc := rfl
@[simp] theorem pal4_tag : (pal4 s).tag = s.tag := rfl
@[simp] theorem pal4_dlen : (pal4 s).dlen = s.dlen := rfl
@[simp] theorem pal4_pay : (pal4 s).pay = s.pay := rfl
@[simp] theorem pal4_img : (pal4 s).img = s.img := rfl
@[simp] theorem pal4_scan : (pal4 s).scan = s.scan := rfl
@[simp] theorem pal4_z : (pal4 s).z = s.z := rfl
@[simp] theorem pal4_out : (pal4 s).out = s.out := rfl
@[simp] theorem pal4_pos : (pal4 s).pos = s.pos := rfl
@[simp] theorem pal4_blk : (pal4 s).blk = s.blk := rfl
@[simp] theorem pal4_res : (pal4 s).res = s.res := rfl
@[simp] theorem pal4_config : (pal4 s).config = s.config := rfl

end

/-! ### pal3t -/

section
variable (s : State)

@[simp] theorem pal3t_op : (pal3t s).op = s.op := rfl
@[simp] theorem pal3t_fmt : (pal3t s).fmt = s.fmt := rfl
@[simp] theorem pal3t_w : (pal3t s).w = s.w := rfl
@[simp] theorem pal3t_h : (pal3t s).h = s.h := rfl
@[simp] theorem pal3t_plen : (pal3t s).plen = s.plen := rfl
@[simp] theorem pal3t_blen : (pal3t s).blen = s.blen := rfl
@[simp] theorem pal3t_status : (pal3t s).status = s.status := rfl
@[simp] theorem pal3t_br : (pal3t s).br = s.br := rfl
@[simp] theorem pal3t_bc : (pal3t s).bc = s.bc := rfl
@[simp] theorem pal3t_bprow : (pal3t s).bprow = s.bprow := rfl
@[simp] theorem pal3t_bpcol : (pal3t s).bpcol = s.bpcol := rfl
@[simp] theorem pal3t_stride : (pal3t s).stride = s.stride := rfl
@[simp] theorem pal3t_phase : (pal3t s).phase = s.phase := rfl
@[simp] theorem pal3t_row : (pal3t s).row = s.row := rfl
@[simp] theorem pal3t_c0 : (pal3t s).c0 = s.c0 := rfl
@[simp] theorem pal3t_c1 : (pal3t s).c1 = s.c1 := rfl
@[simp] theorem pal3t_idx : (pal3t s).idx = s.idx := rfl
@[simp] theorem pal3t_a0 : (pal3t s).a0 = s.a0 := rfl
@[simp] theorem pal3t_a1 : (pal3t s).a1 = s.a1 := rfl
@[simp] theorem pal3t_abits : (pal3t s).abits = s.abits := rfl
@[simp] theorem pal3t_e0 : (pal3t s).e0 = s.e0 := rfl
@[simp] theorem pal3t_e1 : (pal3t s).e1 = s.e1 := rfl
@[simp] theorem pal3t_mode4 : (pal3t s).mode4 = s.mode4 := rfl
@[simp] theorem pal3t_amode8 : (pal3t s).amode8 = s.amode8 := rfl
@[simp] theorem pal3t_pal : (pal3t s).pal = (s.pal.set 2 (Rgb.mix mixHalf s.e0 s.e1).solid).set 3 Pixel.clear := rfl
@[simp] theorem pal3t_ramp : (pal3t s).ramp = s.ramp := rfl
@[simp] theorem pal3t_patch : (pal3t s).patch = s.patch := rfl
@[simp] theorem pal3t_crc : (pal3t s).crc = s.crc := rfl
@[simp] theorem pal3t_tag : (pal3t s).tag = s.tag := rfl
@[simp] theorem pal3t_dlen : (pal3t s).dlen = s.dlen := rfl
@[simp] theorem pal3t_pay : (pal3t s).pay = s.pay := rfl
@[simp] theorem pal3t_img : (pal3t s).img = s.img := rfl
@[simp] theorem pal3t_scan : (pal3t s).scan = s.scan := rfl
@[simp] theorem pal3t_z : (pal3t s).z = s.z := rfl
@[simp] theorem pal3t_out : (pal3t s).out = s.out := rfl
@[simp] theorem pal3t_pos : (pal3t s).pos = s.pos := rfl
@[simp] theorem pal3t_blk : (pal3t s).blk = s.blk := rfl
@[simp] theorem pal3t_res : (pal3t s).res = s.res := rfl
@[simp] theorem pal3t_config : (pal3t s).config = s.config := rfl

end

/-! ### loadAlpha -/

section
variable (x y : Byte) (v : BitVec 48) (s : State)

@[simp] theorem loadAlpha_op : (loadAlpha x y v s).op = s.op := rfl
@[simp] theorem loadAlpha_fmt : (loadAlpha x y v s).fmt = s.fmt := rfl
@[simp] theorem loadAlpha_w : (loadAlpha x y v s).w = s.w := rfl
@[simp] theorem loadAlpha_h : (loadAlpha x y v s).h = s.h := rfl
@[simp] theorem loadAlpha_plen : (loadAlpha x y v s).plen = s.plen := rfl
@[simp] theorem loadAlpha_blen : (loadAlpha x y v s).blen = s.blen := rfl
@[simp] theorem loadAlpha_status : (loadAlpha x y v s).status = s.status := rfl
@[simp] theorem loadAlpha_br : (loadAlpha x y v s).br = s.br := rfl
@[simp] theorem loadAlpha_bc : (loadAlpha x y v s).bc = s.bc := rfl
@[simp] theorem loadAlpha_bprow : (loadAlpha x y v s).bprow = s.bprow := rfl
@[simp] theorem loadAlpha_bpcol : (loadAlpha x y v s).bpcol = s.bpcol := rfl
@[simp] theorem loadAlpha_stride : (loadAlpha x y v s).stride = s.stride := rfl
@[simp] theorem loadAlpha_phase : (loadAlpha x y v s).phase = s.phase := rfl
@[simp] theorem loadAlpha_row : (loadAlpha x y v s).row = s.row := rfl
@[simp] theorem loadAlpha_c0 : (loadAlpha x y v s).c0 = s.c0 := rfl
@[simp] theorem loadAlpha_c1 : (loadAlpha x y v s).c1 = s.c1 := rfl
@[simp] theorem loadAlpha_idx : (loadAlpha x y v s).idx = s.idx := rfl
@[simp] theorem loadAlpha_a0 : (loadAlpha x y v s).a0 = x := rfl
@[simp] theorem loadAlpha_a1 : (loadAlpha x y v s).a1 = y := rfl
@[simp] theorem loadAlpha_abits : (loadAlpha x y v s).abits = v := rfl
@[simp] theorem loadAlpha_e0 : (loadAlpha x y v s).e0 = s.e0 := rfl
@[simp] theorem loadAlpha_e1 : (loadAlpha x y v s).e1 = s.e1 := rfl
@[simp] theorem loadAlpha_mode4 : (loadAlpha x y v s).mode4 = s.mode4 := rfl
@[simp] theorem loadAlpha_amode8 : (loadAlpha x y v s).amode8 = s.amode8 := rfl
@[simp] theorem loadAlpha_pal : (loadAlpha x y v s).pal = s.pal := rfl
@[simp] theorem loadAlpha_ramp : (loadAlpha x y v s).ramp = s.ramp := rfl
@[simp] theorem loadAlpha_patch : (loadAlpha x y v s).patch = s.patch := rfl
@[simp] theorem loadAlpha_crc : (loadAlpha x y v s).crc = s.crc := rfl
@[simp] theorem loadAlpha_tag : (loadAlpha x y v s).tag = s.tag := rfl
@[simp] theorem loadAlpha_dlen : (loadAlpha x y v s).dlen = s.dlen := rfl
@[simp] theorem loadAlpha_pay : (loadAlpha x y v s).pay = s.pay := rfl
@[simp] theorem loadAlpha_img : (loadAlpha x y v s).img = s.img := rfl
@[simp] theorem loadAlpha_scan : (loadAlpha x y v s).scan = s.scan := rfl
@[simp] theorem loadAlpha_z : (loadAlpha x y v s).z = s.z := rfl
@[simp] theorem loadAlpha_out : (loadAlpha x y v s).out = s.out := rfl
@[simp] theorem loadAlpha_pos : (loadAlpha x y v s).pos = s.pos := rfl
@[simp] theorem loadAlpha_blk : (loadAlpha x y v s).blk = s.blk := rfl
@[simp] theorem loadAlpha_res : (loadAlpha x y v s).res = s.res := rfl
@[simp] theorem loadAlpha_config : (loadAlpha x y v s).config = s.config := rfl

end

/-! ### cmp8 -/

section
variable (s : State)

@[simp] theorem cmp8_op : (cmp8 s).op = s.op := rfl
@[simp] theorem cmp8_fmt : (cmp8 s).fmt = s.fmt := rfl
@[simp] theorem cmp8_w : (cmp8 s).w = s.w := rfl
@[simp] theorem cmp8_h : (cmp8 s).h = s.h := rfl
@[simp] theorem cmp8_plen : (cmp8 s).plen = s.plen := rfl
@[simp] theorem cmp8_blen : (cmp8 s).blen = s.blen := rfl
@[simp] theorem cmp8_status : (cmp8 s).status = s.status := rfl
@[simp] theorem cmp8_br : (cmp8 s).br = s.br := rfl
@[simp] theorem cmp8_bc : (cmp8 s).bc = s.bc := rfl
@[simp] theorem cmp8_bprow : (cmp8 s).bprow = s.bprow := rfl
@[simp] theorem cmp8_bpcol : (cmp8 s).bpcol = s.bpcol := rfl
@[simp] theorem cmp8_stride : (cmp8 s).stride = s.stride := rfl
@[simp] theorem cmp8_phase : (cmp8 s).phase = s.phase := rfl
@[simp] theorem cmp8_row : (cmp8 s).row = s.row := rfl
@[simp] theorem cmp8_c0 : (cmp8 s).c0 = s.c0 := rfl
@[simp] theorem cmp8_c1 : (cmp8 s).c1 = s.c1 := rfl
@[simp] theorem cmp8_idx : (cmp8 s).idx = s.idx := rfl
@[simp] theorem cmp8_a0 : (cmp8 s).a0 = s.a0 := rfl
@[simp] theorem cmp8_a1 : (cmp8 s).a1 = s.a1 := rfl
@[simp] theorem cmp8_abits : (cmp8 s).abits = s.abits := rfl
@[simp] theorem cmp8_e0 : (cmp8 s).e0 = s.e0 := rfl
@[simp] theorem cmp8_e1 : (cmp8 s).e1 = s.e1 := rfl
@[simp] theorem cmp8_mode4 : (cmp8 s).mode4 = s.mode4 := rfl
@[simp] theorem cmp8_amode8 : (cmp8 s).amode8 = amode8Of s.a0 s.a1 := rfl
@[simp] theorem cmp8_pal : (cmp8 s).pal = s.pal := rfl
@[simp] theorem cmp8_ramp : (cmp8 s).ramp = s.ramp := rfl
@[simp] theorem cmp8_patch : (cmp8 s).patch = s.patch := rfl
@[simp] theorem cmp8_crc : (cmp8 s).crc = s.crc := rfl
@[simp] theorem cmp8_tag : (cmp8 s).tag = s.tag := rfl
@[simp] theorem cmp8_dlen : (cmp8 s).dlen = s.dlen := rfl
@[simp] theorem cmp8_pay : (cmp8 s).pay = s.pay := rfl
@[simp] theorem cmp8_img : (cmp8 s).img = s.img := rfl
@[simp] theorem cmp8_scan : (cmp8 s).scan = s.scan := rfl
@[simp] theorem cmp8_z : (cmp8 s).z = s.z := rfl
@[simp] theorem cmp8_out : (cmp8 s).out = s.out := rfl
@[simp] theorem cmp8_pos : (cmp8 s).pos = s.pos := rfl
@[simp] theorem cmp8_blk : (cmp8 s).blk = s.blk := rfl
@[simp] theorem cmp8_res : (cmp8 s).res = s.res := rfl
@[simp] theorem cmp8_config : (cmp8 s).config = s.config := rfl

end

/-! ### aramp8 -/

section
variable (s : State)

@[simp] theorem aramp8_op : (aramp8 s).op = s.op := rfl
@[simp] theorem aramp8_fmt : (aramp8 s).fmt = s.fmt := rfl
@[simp] theorem aramp8_w : (aramp8 s).w = s.w := rfl
@[simp] theorem aramp8_h : (aramp8 s).h = s.h := rfl
@[simp] theorem aramp8_plen : (aramp8 s).plen = s.plen := rfl
@[simp] theorem aramp8_blen : (aramp8 s).blen = s.blen := rfl
@[simp] theorem aramp8_status : (aramp8 s).status = s.status := rfl
@[simp] theorem aramp8_br : (aramp8 s).br = s.br := rfl
@[simp] theorem aramp8_bc : (aramp8 s).bc = s.bc := rfl
@[simp] theorem aramp8_bprow : (aramp8 s).bprow = s.bprow := rfl
@[simp] theorem aramp8_bpcol : (aramp8 s).bpcol = s.bpcol := rfl
@[simp] theorem aramp8_stride : (aramp8 s).stride = s.stride := rfl
@[simp] theorem aramp8_phase : (aramp8 s).phase = s.phase := rfl
@[simp] theorem aramp8_row : (aramp8 s).row = s.row := rfl
@[simp] theorem aramp8_c0 : (aramp8 s).c0 = s.c0 := rfl
@[simp] theorem aramp8_c1 : (aramp8 s).c1 = s.c1 := rfl
@[simp] theorem aramp8_idx : (aramp8 s).idx = s.idx := rfl
@[simp] theorem aramp8_a0 : (aramp8 s).a0 = s.a0 := rfl
@[simp] theorem aramp8_a1 : (aramp8 s).a1 = s.a1 := rfl
@[simp] theorem aramp8_abits : (aramp8 s).abits = s.abits := rfl
@[simp] theorem aramp8_e0 : (aramp8 s).e0 = s.e0 := rfl
@[simp] theorem aramp8_e1 : (aramp8 s).e1 = s.e1 := rfl
@[simp] theorem aramp8_mode4 : (aramp8 s).mode4 = s.mode4 := rfl
@[simp] theorem aramp8_amode8 : (aramp8 s).amode8 = s.amode8 := rfl
@[simp] theorem aramp8_pal : (aramp8 s).pal = s.pal := rfl
@[simp] theorem aramp8_ramp : (aramp8 s).ramp = ramp8 s.config.rampWeights s.a0 s.a1 := rfl
@[simp] theorem aramp8_patch : (aramp8 s).patch = s.patch := rfl
@[simp] theorem aramp8_crc : (aramp8 s).crc = s.crc := rfl
@[simp] theorem aramp8_tag : (aramp8 s).tag = s.tag := rfl
@[simp] theorem aramp8_dlen : (aramp8 s).dlen = s.dlen := rfl
@[simp] theorem aramp8_pay : (aramp8 s).pay = s.pay := rfl
@[simp] theorem aramp8_img : (aramp8 s).img = s.img := rfl
@[simp] theorem aramp8_scan : (aramp8 s).scan = s.scan := rfl
@[simp] theorem aramp8_z : (aramp8 s).z = s.z := rfl
@[simp] theorem aramp8_out : (aramp8 s).out = s.out := rfl
@[simp] theorem aramp8_pos : (aramp8 s).pos = s.pos := rfl
@[simp] theorem aramp8_blk : (aramp8 s).blk = s.blk := rfl
@[simp] theorem aramp8_res : (aramp8 s).res = s.res := rfl
@[simp] theorem aramp8_config : (aramp8 s).config = s.config := rfl

end

/-! ### aramp6 -/

section
variable (s : State)

@[simp] theorem aramp6_op : (aramp6 s).op = s.op := rfl
@[simp] theorem aramp6_fmt : (aramp6 s).fmt = s.fmt := rfl
@[simp] theorem aramp6_w : (aramp6 s).w = s.w := rfl
@[simp] theorem aramp6_h : (aramp6 s).h = s.h := rfl
@[simp] theorem aramp6_plen : (aramp6 s).plen = s.plen := rfl
@[simp] theorem aramp6_blen : (aramp6 s).blen = s.blen := rfl
@[simp] theorem aramp6_status : (aramp6 s).status = s.status := rfl
@[simp] theorem aramp6_br : (aramp6 s).br = s.br := rfl
@[simp] theorem aramp6_bc : (aramp6 s).bc = s.bc := rfl
@[simp] theorem aramp6_bprow : (aramp6 s).bprow = s.bprow := rfl
@[simp] theorem aramp6_bpcol : (aramp6 s).bpcol = s.bpcol := rfl
@[simp] theorem aramp6_stride : (aramp6 s).stride = s.stride := rfl
@[simp] theorem aramp6_phase : (aramp6 s).phase = s.phase := rfl
@[simp] theorem aramp6_row : (aramp6 s).row = s.row := rfl
@[simp] theorem aramp6_c0 : (aramp6 s).c0 = s.c0 := rfl
@[simp] theorem aramp6_c1 : (aramp6 s).c1 = s.c1 := rfl
@[simp] theorem aramp6_idx : (aramp6 s).idx = s.idx := rfl
@[simp] theorem aramp6_a0 : (aramp6 s).a0 = s.a0 := rfl
@[simp] theorem aramp6_a1 : (aramp6 s).a1 = s.a1 := rfl
@[simp] theorem aramp6_abits : (aramp6 s).abits = s.abits := rfl
@[simp] theorem aramp6_e0 : (aramp6 s).e0 = s.e0 := rfl
@[simp] theorem aramp6_e1 : (aramp6 s).e1 = s.e1 := rfl
@[simp] theorem aramp6_mode4 : (aramp6 s).mode4 = s.mode4 := rfl
@[simp] theorem aramp6_amode8 : (aramp6 s).amode8 = s.amode8 := rfl
@[simp] theorem aramp6_pal : (aramp6 s).pal = s.pal := rfl
@[simp] theorem aramp6_ramp : (aramp6 s).ramp = ramp6 s.config.rampWeights s.a0 s.a1 := rfl
@[simp] theorem aramp6_patch : (aramp6 s).patch = s.patch := rfl
@[simp] theorem aramp6_crc : (aramp6 s).crc = s.crc := rfl
@[simp] theorem aramp6_tag : (aramp6 s).tag = s.tag := rfl
@[simp] theorem aramp6_dlen : (aramp6 s).dlen = s.dlen := rfl
@[simp] theorem aramp6_pay : (aramp6 s).pay = s.pay := rfl
@[simp] theorem aramp6_img : (aramp6 s).img = s.img := rfl
@[simp] theorem aramp6_scan : (aramp6 s).scan = s.scan := rfl
@[simp] theorem aramp6_z : (aramp6 s).z = s.z := rfl
@[simp] theorem aramp6_out : (aramp6 s).out = s.out := rfl
@[simp] theorem aramp6_pos : (aramp6 s).pos = s.pos := rfl
@[simp] theorem aramp6_blk : (aramp6 s).blk = s.blk := rfl
@[simp] theorem aramp6_res : (aramp6 s).res = s.res := rfl
@[simp] theorem aramp6_config : (aramp6 s).config = s.config := rfl

end

/-! ### grid -/

section
variable (s : State)

@[simp] theorem grid_op : (grid s).op = s.op := rfl
@[simp] theorem grid_fmt : (grid s).fmt = s.fmt := rfl
@[simp] theorem grid_w : (grid s).w = s.w := rfl
@[simp] theorem grid_h : (grid s).h = s.h := rfl
@[simp] theorem grid_plen : (grid s).plen = s.plen := rfl
@[simp] theorem grid_blen : (grid s).blen = s.blen := rfl
@[simp] theorem grid_status : (grid s).status = s.status := rfl
@[simp] theorem grid_br : (grid s).br = s.br := rfl
@[simp] theorem grid_bc : (grid s).bc = s.bc := rfl
@[simp] theorem grid_bprow : (grid s).bprow = ceilQuarter s.w := rfl
@[simp] theorem grid_bpcol : (grid s).bpcol = ceilQuarter s.h := rfl
@[simp] theorem grid_stride : (grid s).stride = s.stride := rfl
@[simp] theorem grid_phase : (grid s).phase = s.phase := rfl
@[simp] theorem grid_row : (grid s).row = s.row := rfl
@[simp] theorem grid_c0 : (grid s).c0 = s.c0 := rfl
@[simp] theorem grid_c1 : (grid s).c1 = s.c1 := rfl
@[simp] theorem grid_idx : (grid s).idx = s.idx := rfl
@[simp] theorem grid_a0 : (grid s).a0 = s.a0 := rfl
@[simp] theorem grid_a1 : (grid s).a1 = s.a1 := rfl
@[simp] theorem grid_abits : (grid s).abits = s.abits := rfl
@[simp] theorem grid_e0 : (grid s).e0 = s.e0 := rfl
@[simp] theorem grid_e1 : (grid s).e1 = s.e1 := rfl
@[simp] theorem grid_mode4 : (grid s).mode4 = s.mode4 := rfl
@[simp] theorem grid_amode8 : (grid s).amode8 = s.amode8 := rfl
@[simp] theorem grid_pal : (grid s).pal = s.pal := rfl
@[simp] theorem grid_ramp : (grid s).ramp = s.ramp := rfl
@[simp] theorem grid_patch : (grid s).patch = s.patch := rfl
@[simp] theorem grid_crc : (grid s).crc = s.crc := rfl
@[simp] theorem grid_tag : (grid s).tag = s.tag := rfl
@[simp] theorem grid_dlen : (grid s).dlen = s.dlen := rfl
@[simp] theorem grid_pay : (grid s).pay = s.pay := rfl
@[simp] theorem grid_img : (grid s).img = s.img := rfl
@[simp] theorem grid_scan : (grid s).scan = s.scan := rfl
@[simp] theorem grid_z : (grid s).z = s.z := rfl
@[simp] theorem grid_out : (grid s).out = s.out := rfl
@[simp] theorem grid_pos : (grid s).pos = s.pos := rfl
@[simp] theorem grid_blk : (grid s).blk = s.blk := rfl
@[simp] theorem grid_res : (grid s).res = s.res := rfl
@[simp] theorem grid_config : (grid s).config = s.config := rfl

end

/-! ### imgInit -/

section
variable (s : State)

@[simp] theorem imgInit_op : (imgInit s).op = s.op := rfl
@[simp] theorem imgInit_fmt : (imgInit s).fmt = s.fmt := rfl
@[simp] theorem imgInit_w : (imgInit s).w = s.w := rfl
@[simp] theorem imgInit_h : (imgInit s).h = s.h := rfl
@[simp] theorem imgInit_plen : (imgInit s).plen = s.plen := rfl
@[simp] theorem imgInit_blen : (imgInit s).blen = s.blen := rfl
@[simp] theorem imgInit_status : (imgInit s).status = s.status := rfl
@[simp] theorem imgInit_br : (imgInit s).br = s.br := rfl
@[simp] theorem imgInit_bc : (imgInit s).bc = s.bc := rfl
@[simp] theorem imgInit_bprow : (imgInit s).bprow = s.bprow := rfl
@[simp] theorem imgInit_bpcol : (imgInit s).bpcol = s.bpcol := rfl
@[simp] theorem imgInit_stride : (imgInit s).stride = s.stride := rfl
@[simp] theorem imgInit_phase : (imgInit s).phase = s.phase := rfl
@[simp] theorem imgInit_row : (imgInit s).row = s.row := rfl
@[simp] theorem imgInit_c0 : (imgInit s).c0 = s.c0 := rfl
@[simp] theorem imgInit_c1 : (imgInit s).c1 = s.c1 := rfl
@[simp] theorem imgInit_idx : (imgInit s).idx = s.idx := rfl
@[simp] theorem imgInit_a0 : (imgInit s).a0 = s.a0 := rfl
@[simp] theorem imgInit_a1 : (imgInit s).a1 = s.a1 := rfl
@[simp] theorem imgInit_abits : (imgInit s).abits = s.abits := rfl
@[simp] theorem imgInit_e0 : (imgInit s).e0 = s.e0 := rfl
@[simp] theorem imgInit_e1 : (imgInit s).e1 = s.e1 := rfl
@[simp] theorem imgInit_mode4 : (imgInit s).mode4 = s.mode4 := rfl
@[simp] theorem imgInit_amode8 : (imgInit s).amode8 = s.amode8 := rfl
@[simp] theorem imgInit_pal : (imgInit s).pal = s.pal := rfl
@[simp] theorem imgInit_ramp : (imgInit s).ramp = s.ramp := rfl
@[simp] theorem imgInit_patch : (imgInit s).patch = s.patch := rfl
@[simp] theorem imgInit_crc : (imgInit s).crc = s.crc := rfl
@[simp] theorem imgInit_tag : (imgInit s).tag = s.tag := rfl
@[simp] theorem imgInit_dlen : (imgInit s).dlen = s.dlen := rfl
@[simp] theorem imgInit_pay : (imgInit s).pay = s.pay := rfl
@[simp] theorem imgInit_img : (imgInit s).img = Memory.zeros (s.w.toNat * s.h.toNat * 4) := rfl
@[simp] theorem imgInit_scan : (imgInit s).scan = s.scan := rfl
@[simp] theorem imgInit_z : (imgInit s).z = s.z := rfl
@[simp] theorem imgInit_out : (imgInit s).out = s.out := rfl
@[simp] theorem imgInit_pos : (imgInit s).pos = s.pos := rfl
@[simp] theorem imgInit_blk : (imgInit s).blk = s.blk := rfl
@[simp] theorem imgInit_res : (imgInit s).res = s.res := rfl
@[simp] theorem imgInit_config : (imgInit s).config = s.config := rfl

end

/-! ### startBlocks -/

section
variable (s : State)

@[simp] theorem startBlocks_op : (startBlocks s).op = s.op := rfl
@[simp] theorem startBlocks_fmt : (startBlocks s).fmt = s.fmt := rfl
@[simp] theorem startBlocks_w : (startBlocks s).w = s.w := rfl
@[simp] theorem startBlocks_h : (startBlocks s).h = s.h := rfl
@[simp] theorem startBlocks_plen : (startBlocks s).plen = s.plen := rfl
@[simp] theorem startBlocks_blen : (startBlocks s).blen = s.blen := rfl
@[simp] theorem startBlocks_status : (startBlocks s).status = s.status := rfl
@[simp] theorem startBlocks_br : (startBlocks s).br = 0 := rfl
@[simp] theorem startBlocks_bc : (startBlocks s).bc = 0 := rfl
@[simp] theorem startBlocks_bprow : (startBlocks s).bprow = s.bprow := rfl
@[simp] theorem startBlocks_bpcol : (startBlocks s).bpcol = s.bpcol := rfl
@[simp] theorem startBlocks_stride : (startBlocks s).stride = s.stride := rfl
@[simp] theorem startBlocks_phase : (startBlocks s).phase = s.phase := rfl
@[simp] theorem startBlocks_row : (startBlocks s).row = s.row := rfl
@[simp] theorem startBlocks_c0 : (startBlocks s).c0 = s.c0 := rfl
@[simp] theorem startBlocks_c1 : (startBlocks s).c1 = s.c1 := rfl
@[simp] theorem startBlocks_idx : (startBlocks s).idx = s.idx := rfl
@[simp] theorem startBlocks_a0 : (startBlocks s).a0 = s.a0 := rfl
@[simp] theorem startBlocks_a1 : (startBlocks s).a1 = s.a1 := rfl
@[simp] theorem startBlocks_abits : (startBlocks s).abits = s.abits := rfl
@[simp] theorem startBlocks_e0 : (startBlocks s).e0 = s.e0 := rfl
@[simp] theorem startBlocks_e1 : (startBlocks s).e1 = s.e1 := rfl
@[simp] theorem startBlocks_mode4 : (startBlocks s).mode4 = s.mode4 := rfl
@[simp] theorem startBlocks_amode8 : (startBlocks s).amode8 = s.amode8 := rfl
@[simp] theorem startBlocks_pal : (startBlocks s).pal = s.pal := rfl
@[simp] theorem startBlocks_ramp : (startBlocks s).ramp = s.ramp := rfl
@[simp] theorem startBlocks_patch : (startBlocks s).patch = s.patch := rfl
@[simp] theorem startBlocks_crc : (startBlocks s).crc = s.crc := rfl
@[simp] theorem startBlocks_tag : (startBlocks s).tag = s.tag := rfl
@[simp] theorem startBlocks_dlen : (startBlocks s).dlen = s.dlen := rfl
@[simp] theorem startBlocks_pay : (startBlocks s).pay = s.pay := rfl
@[simp] theorem startBlocks_img : (startBlocks s).img = s.img := rfl
@[simp] theorem startBlocks_scan : (startBlocks s).scan = s.scan := rfl
@[simp] theorem startBlocks_z : (startBlocks s).z = s.z := rfl
@[simp] theorem startBlocks_out : (startBlocks s).out = s.out := rfl
@[simp] theorem startBlocks_pos : (startBlocks s).pos = s.pos := rfl
@[simp] theorem startBlocks_blk : (startBlocks s).blk = s.blk := rfl
@[simp] theorem startBlocks_res : (startBlocks s).res = s.res := rfl
@[simp] theorem startBlocks_config : (startBlocks s).config = s.config := rfl

end

/-! ### crcInit -/

section
variable (s : State)

@[simp] theorem crcInit_op : (crcInit s).op = s.op := rfl
@[simp] theorem crcInit_fmt : (crcInit s).fmt = s.fmt := rfl
@[simp] theorem crcInit_w : (crcInit s).w = s.w := rfl
@[simp] theorem crcInit_h : (crcInit s).h = s.h := rfl
@[simp] theorem crcInit_plen : (crcInit s).plen = s.plen := rfl
@[simp] theorem crcInit_blen : (crcInit s).blen = s.blen := rfl
@[simp] theorem crcInit_status : (crcInit s).status = s.status := rfl
@[simp] theorem crcInit_br : (crcInit s).br = s.br := rfl
@[simp] theorem crcInit_bc : (crcInit s).bc = s.bc := rfl
@[simp] theorem crcInit_bprow : (crcInit s).bprow = s.bprow := rfl
@[simp] theorem crcInit_bpcol : (crcInit s).bpcol = s.bpcol := rfl
@[simp] theorem crcInit_stride : (crcInit s).stride = s.stride := rfl
@[simp] theorem crcInit_phase : (crcInit s).phase = s.phase := rfl
@[simp] theorem crcInit_row : (crcInit s).row = s.row := rfl
@[simp] theorem crcInit_c0 : (crcInit s).c0 = s.c0 := rfl
@[simp] theorem crcInit_c1 : (crcInit s).c1 = s.c1 := rfl
@[simp] theorem crcInit_idx : (crcInit s).idx = s.idx := rfl
@[simp] theorem crcInit_a0 : (crcInit s).a0 = s.a0 := rfl
@[simp] theorem crcInit_a1 : (crcInit s).a1 = s.a1 := rfl
@[simp] theorem crcInit_abits : (crcInit s).abits = s.abits := rfl
@[simp] theorem crcInit_e0 : (crcInit s).e0 = s.e0 := rfl
@[simp] theorem crcInit_e1 : (crcInit s).e1 = s.e1 := rfl
@[simp] theorem crcInit_mode4 : (crcInit s).mode4 = s.mode4 := rfl
@[simp] theorem crcInit_amode8 : (crcInit s).amode8 = s.amode8 := rfl
@[simp] theorem crcInit_pal : (crcInit s).pal = s.pal := rfl
@[simp] theorem crcInit_ramp : (crcInit s).ramp = s.ramp := rfl
@[simp] theorem crcInit_patch : (crcInit s).patch = s.patch := rfl
@[simp] theorem crcInit_crc : (crcInit s).crc = crcStart := rfl
@[simp] theorem crcInit_tag : (crcInit s).tag = s.tag := rfl
@[simp] theorem crcInit_dlen : (crcInit s).dlen = s.dlen := rfl
@[simp] theorem crcInit_pay : (crcInit s).pay = s.pay := rfl
@[simp] theorem crcInit_img : (crcInit s).img = s.img := rfl
@[simp] theorem crcInit_scan : (crcInit s).scan = s.scan := rfl
@[simp] theorem crcInit_z : (crcInit s).z = s.z := rfl
@[simp] theorem crcInit_out : (crcInit s).out = s.out := rfl
@[simp] theorem crcInit_pos : (crcInit s).pos = s.pos := rfl
@[simp] theorem crcInit_blk : (crcInit s).blk = s.blk := rfl
@[simp] theorem crcInit_res : (crcInit s).res = s.res := rfl
@[simp] theorem crcInit_config : (crcInit s).config = s.config := rfl

end

/-! ### loadChunk -/

section
variable (t : Tag) (n : Nat) (s : State)

@[simp] theorem loadChunk_op : (loadChunk t n s).op = s.op := rfl
@[simp] theorem loadChunk_fmt : (loadChunk t n s).fmt = s.fmt := rfl
@[simp] theorem loadChunk_w : (loadChunk t n s).w = s.w := rfl
@[simp] theorem loadChunk_h : (loadChunk t n s).h = s.h := rfl
@[simp] theorem loadChunk_plen : (loadChunk t n s).plen = s.plen := rfl
@[simp] theorem loadChunk_blen : (loadChunk t n s).blen = s.blen := rfl
@[simp] theorem loadChunk_status : (loadChunk t n s).status = s.status := rfl
@[simp] theorem loadChunk_br : (loadChunk t n s).br = s.br := rfl
@[simp] theorem loadChunk_bc : (loadChunk t n s).bc = s.bc := rfl
@[simp] theorem loadChunk_bprow : (loadChunk t n s).bprow = s.bprow := rfl
@[simp] theorem loadChunk_bpcol : (loadChunk t n s).bpcol = s.bpcol := rfl
@[simp] theorem loadChunk_stride : (loadChunk t n s).stride = s.stride := rfl
@[simp] theorem loadChunk_phase : (loadChunk t n s).phase = s.phase := rfl
@[simp] theorem loadChunk_row : (loadChunk t n s).row = s.row := rfl
@[simp] theorem loadChunk_c0 : (loadChunk t n s).c0 = s.c0 := rfl
@[simp] theorem loadChunk_c1 : (loadChunk t n s).c1 = s.c1 := rfl
@[simp] theorem loadChunk_idx : (loadChunk t n s).idx = s.idx := rfl
@[simp] theorem loadChunk_a0 : (loadChunk t n s).a0 = s.a0 := rfl
@[simp] theorem loadChunk_a1 : (loadChunk t n s).a1 = s.a1 := rfl
@[simp] theorem loadChunk_abits : (loadChunk t n s).abits = s.abits := rfl
@[simp] theorem loadChunk_e0 : (loadChunk t n s).e0 = s.e0 := rfl
@[simp] theorem loadChunk_e1 : (loadChunk t n s).e1 = s.e1 := rfl
@[simp] theorem loadChunk_mode4 : (loadChunk t n s).mode4 = s.mode4 := rfl
@[simp] theorem loadChunk_amode8 : (loadChunk t n s).amode8 = s.amode8 := rfl
@[simp] theorem loadChunk_pal : (loadChunk t n s).pal = s.pal := rfl
@[simp] theorem loadChunk_ramp : (loadChunk t n s).ramp = s.ramp := rfl
@[simp] theorem loadChunk_patch : (loadChunk t n s).patch = s.patch := rfl
@[simp] theorem loadChunk_crc : (loadChunk t n s).crc = s.crc := rfl
@[simp] theorem loadChunk_tag : (loadChunk t n s).tag = t := rfl
@[simp] theorem loadChunk_dlen : (loadChunk t n s).dlen = BitVec.ofNat 32 n := rfl
@[simp] theorem loadChunk_pay : (loadChunk t n s).pay = s.pay := rfl
@[simp] theorem loadChunk_img : (loadChunk t n s).img = s.img := rfl
@[simp] theorem loadChunk_scan : (loadChunk t n s).scan = s.scan := rfl
@[simp] theorem loadChunk_z : (loadChunk t n s).z = s.z := rfl
@[simp] theorem loadChunk_out : (loadChunk t n s).out = s.out := rfl
@[simp] theorem loadChunk_pos : (loadChunk t n s).pos = s.pos := rfl
@[simp] theorem loadChunk_blk : (loadChunk t n s).blk = s.blk := rfl
@[simp] theorem loadChunk_res : (loadChunk t n s).res = s.res := rfl
@[simp] theorem loadChunk_config : (loadChunk t n s).config = s.config := rfl

end

end Sys2Proof.Machine
end

