-- ==== Sys2Proof/Laws/Ops.lean ====
section
/-! SUPPORT. For each shared operation, one lemma that says everything it can do. -/

namespace Sys2Proof.Machine

/-! ### andThen -/

@[simp] theorem andThen_next (s : State) (f : State → Host.Outcome State Fault Refusal) :
    andThen (.next s) f = f s := rfl

@[simp] theorem andThen_fault (r : Fault) (f : State → Host.Outcome State Fault Refusal) :
    andThen (.fault r) f = .fault r := rfl

@[simp] theorem andThen_refused (r : Refusal) (f : State → Host.Outcome State Fault Refusal) :
    andThen (.refused r) f = .refused r := rfl

theorem andThen_eq_next {o : Host.Outcome State Fault Refusal} {f : State → Host.Outcome State Fault Refusal}
    {t : State} : andThen o f = .next t ↔ ∃ s, o = .next s ∧ f s = .next t := by
  cases o <;> simp

theorem andThen_eq_fault {o : Host.Outcome State Fault Refusal} {f : State → Host.Outcome State Fault Refusal}
    {r : Fault} : andThen o f = .fault r ↔ o = .fault r ∨ ∃ s, o = .next s ∧ f s = .fault r := by
  cases o <;> simp

theorem andThen_assoc (o : Host.Outcome State Fault Refusal) (f g : State → Host.Outcome State Fault Refusal) :
    andThen (andThen o f) g = andThen o fun s => andThen (f s) g := by
  cases o <;> rfl

/-! ### The step -/

/-- Everything a step that answers a next state can have done. -/
theorem step_cases {s t : State} (h : step s = .next t) :
    (s.pos = .idle ∧ t = s) ∨
    ∃ i u, fetch s = .instr i ∧ exec i s = .next u ∧ t = advance s.pos i u := by
  unfold step at h
  split at h
  · next hf =>
    left
    refine ⟨?_, by cases h; rfl⟩
    unfold fetch at hf
    split at hf
    · assumption
    · cases hf
    · split at hf
      · unfold fetchedOf at hf
        split at hf <;> cases hf
      · cases hf
    · cases hf
  · cases h
  · next i hf =>
    right
    obtain ⟨u, hu, ht⟩ := andThen_eq_next.mp h
    exact ⟨i, u, hf, hu, by cases ht; rfl⟩

/-- What a fetch of an instruction found. -/
theorem fetch_cases {s : State} {i : Instr} (h : fetch s = .instr i) :
    (s.pos = .command ∧ i = decodeCommand s.record) ∨
    (s.pos = .block ∧ ∃ bs, s.blk = some bs ∧ decodeBlock s.fmt bs = .ok i) ∨
    s.pos = .op i := by
  unfold fetch at h
  split at h
  · cases h
  · next hp => exact .inl ⟨hp, by cases h; rfl⟩
  · next hp =>
    split at h
    · next bs hb =>
      refine .inr (.inl ⟨hp, bs, hb, ?_⟩)
      unfold fetchedOf at h
      split at h <;> cases h
      assumption
    · cases h
  · next hp => cases h; exact .inr (.inr hp)

/-! ### The host -/

/-- A host move exists exactly on an idle engine. -/
theorem hostMove_eq_some {f : State → State} {s t : State} : hostMove f s = some t ↔ s.pos = .idle ∧ t = f s := by
  unfold hostMove
  split <;> simp_all [eq_comm]

/-- A host read answers exactly between commands. -/
theorem hostRead_eq_some {α : Type} {f : State → α} {s : State} {v : α} :
    hostRead f s = some v ↔ s.pos = .idle ∧ v = f s := by
  unfold hostRead
  split <;> simp_all [eq_comm]

/-- A result is what the read gives, and there is one exactly with `OK`. -/
theorem hostResult_eq_some {read : State → Option (List Byte)} {s : State} {bs : List Byte} :
    hostResult read s = some bs ↔ s.status = .ok ∧ read s = some bs := by
  unfold hostResult
  split <;> simp_all

/-! ### Decoding a block -/

/-- The block operation that bytes decode to, and what it does: the block decoder of the format on their word. -/
theorem decodeBlock_cases {f : FormatCode} {bs : List Byte} {i : Instr} (h : decodeBlock f bs = .ok i) :
    (f = .bc1 ∧ bs.length = 8 ∧ ∀ s, exec i s = .next (bc1Dec (le64 bs) s)) ∨
    (f = .bc3 ∧ bs.length = 16 ∧ ∀ s, exec i s = .next (bc3Dec (le128 bs) s)) := by
  cases f with
  | bc1 =>
    simp only [decodeBlock, decodeB64] at h
    split at h
    · next hl =>
      refine .inl ⟨rfl, hl, fun s => ?_⟩
      cases h
      unfold decodeWord64
      split
      · next hm =>
        have : (cmp16 (palBase (bc1Parse (le64 bs) s))).mode4 = true := hm
        simp only [exec, execBc1DecPal4, bc1Dec, this, if_true]
        rfl
      · next hm =>
        have : (cmp16 (palBase (bc1Parse (le64 bs) s))).mode4 = false := eq_false_of_ne_true hm
        simp only [exec, execBc1DecPal3t, bc1Dec, this]
        rfl
    · cases h
  | bc3 =>
    simp only [decodeBlock, decodeB128] at h
    split at h
    · next hl =>
      refine .inr ⟨rfl, hl, fun s => ?_⟩
      cases h
      unfold decodeWord128
      split
      · next hm =>
        have : (cmp8 (bc3Parse (le128 bs) s)).amode8 = true := hm
        simp only [exec, execBc3DecAramp8, bc3Dec, this, if_true]
        rfl
      · next hm =>
        have : (cmp8 (bc3Parse (le128 bs) s)).amode8 = false := eq_false_of_ne_true hm
        simp only [exec, execBc3DecAramp6, bc3Dec, this]
        rfl
    · cases h
  | other n => cases h

/-- `BC1.DEC` writes its working registers and nothing else, and its patch does not depend on the state. -/
theorem bc1Dec_eq (b : BitVec 64) (s s' : State) :
    bc1Dec b s = { s with
      c0 := b64C0 b, c1 := b64C1 b, idx := b64Idx b, e0 := endpoint (b64C0 b), e1 := endpoint (b64C1 b)
      mode4 := mode4Of (b64C0 b) (b64C1 b), pal := (bc1Dec b s').pal, patch := (bc1Dec b s').patch } := by
  have hp : ∀ (p p' : Vector Pixel 4) (w x y z : Pixel),
      (((p.set 0 w).set 1 x).set 2 y).set 3 z = (((p'.set 0 w).set 1 x).set 2 y).set 3 z := by
    intro p p' w x y z
    ext i hi
    rcases (by omega : i = 0 ∨ i = 1 ∨ i = 2 ∨ i = 3) with rfl | rfl | rfl | rfl <;> simp
  unfold bc1Dec
  cases hm : mode4Of (b64C0 b) (b64C1 b)
  · have h1 : ∀ u : State, (cmp16 (palBase (bc1Parse b u))).mode4 = false := fun u => hm
    simp only [h1]
    simp [bc1Pixels, pal3t, cmp16, palBase, bc1Parse, loadColor, hm, hp s.pal s'.pal]
  · have h1 : ∀ u : State, (cmp16 (palBase (bc1Parse b u))).mode4 = true := fun u => hm
    simp only [h1, if_true]
    simp [bc1Pixels, pal4, cmp16, palBase, bc1Parse, loadColor, hm, hp s.pal s'.pal]

/-- `BC3.DEC` writes its working registers and nothing else, and its patch depends on the state only through
`RAMP_WEIGHTS`. -/
theorem bc3Dec_eq (b : BitVec 128) (s s' : State) (hk : s'.config.rampWeights = s.config.rampWeights) :
    bc3Dec b s = { s with
      a0 := b128A0 b, a1 := b128A1 b, abits := b128Abits b, c0 := b128C0 b, c1 := b128C1 b, idx := b128Idx b
      e0 := endpoint (b128C0 b), e1 := endpoint (b128C1 b), amode8 := amode8Of (b128A0 b) (b128A1 b)
      pal := (bc3Dec b s').pal, ramp := (bc3Dec b s').ramp, patch := (bc3Dec b s').patch } := by
  have hp : ∀ (p p' : Vector Pixel 4) (w x y z : Pixel),
      (((p.set 0 w).set 1 x).set 2 y).set 3 z = (((p'.set 0 w).set 1 x).set 2 y).set 3 z := by
    intro p p' w x y z
    ext i hi
    rcases (by omega : i = 0 ∨ i = 1 ∨ i = 2 ∨ i = 3) with rfl | rfl | rfl | rfl <;> simp
  unfold bc3Dec
  cases hm : amode8Of (b128A0 b) (b128A1 b)
  · have h1 : ∀ u : State, (cmp8 (bc3Parse b u)).amode8 = false := fun u => hm
    simp only [h1]
    simp [bc3Pixels, bc3Color, aramp6, pal4, cmp8, palBase, bc3Parse, loadColor, loadAlpha, hm, hk, hp s.pal s'.pal]
  · have h1 : ∀ u : State, (cmp8 (bc3Parse b u)).amode8 = true := fun u => hm
    simp only [h1, if_true]
    simp [bc3Pixels, bc3Color, aramp8, pal4, cmp8, palBase, bc3Parse, loadColor, loadAlpha, hm, hk, hp s.pal s'.pal]

end Sys2Proof.Machine
end

