-- ==== Sys2Proof/Laws/Assembler.lean ====
section
/-! SUPPORT. For each operation of the image assembler, one lemma that says everything it can do. -/

namespace Sys2Proof.Machine

theorem toNat_ceilQuarter (n : Half) : (ceilQuarter n).toNat = (n.toNat + 3) / 4 := by
  have := n.isLt
  simp only [ceilQuarter, BitVec.toNat_ofNat]
  omega

/-- `VALIDATE` has nothing to raise exactly when the format is recognised and no dimension is zero. -/
theorem validateError_eq_none {o : Config.ErrOrder} {f : FormatCode} {w h : Half} :
    validateError o f w h = none ↔ f.unrecognised = false ∧ w ≠ 0 ∧ h ≠ 0 := by
  unfold validateError
  by_cases hz : w = 0 ∨ h = 0
  · rw [if_pos hz]
    constructor
    · intro h
      split at h <;> cases h
    · rintro ⟨-, hw, hh⟩
      rcases hz with h | h <;> contradiction
  · rw [if_neg hz]
    rw [not_or] at hz
    cases f.unrecognised
    · simp only [Bool.false_eq_true, if_false, true_and, true_iff]
      exact hz
    · simp

/-- What `VALIDATE` raises is never `OK` and never the encoder's error. -/
theorem validateError_eq_some {o : Config.ErrOrder} {f : FormatCode} {w h : Half} {e : Status} (he : validateError o f w h = some e) :
    e = .unsupportedFormat ∨ e = .invalidDimensions := by
  unfold validateError bothFaults at he
  repeat' split at he
  all_goals cases he
  all_goals simp

/-- Under `ERR_ORDER = format_first` a bad format is what `VALIDATE` reports, whatever the dimensions. -/
theorem validateError_formatFirst {f : FormatCode} (w h : Half) (hf : f.unrecognised = true) :
    validateError .formatFirst f w h = some .unsupportedFormat := by
  simp [validateError, bothFaults, hf]

/-- `STRIDE` on a recognised format. -/
theorem stride_of_recognised {s : State} (h : s.fmt.unrecognised = false) :
    ∃ v : BitVec 5, stride s = .next { s with stride := v } ∧ v.toNat = strideOf s.fmt := by
  unfold stride
  cases hf : s.fmt with
  | bc1 => exact ⟨8, rfl, rfl⟩
  | bc3 => exact ⟨16, rfl, rfl⟩
  | other n => simp [hf, FormatCode.unrecognised] at h

/-- `BLKFETCH` only writes `blk`, and faults only when the host broke its duty. -/
theorem blkFetch_cases (s : State) :
    (s.plen < s.blkIdx * s.stride.toNat + s.stride.toNat ∧ blkFetch s = .next { s with blk := none }) ∨
    (s.blkIdx * s.stride.toNat + s.stride.toNat ≤ s.plen ∧
      s.blkIdx * s.stride.toNat + s.stride.toNat ≤ s.pay.size ∧
      blkFetch s = .next { s with
        blk := some ((List.range s.stride.toNat).map fun j => s.pay.read (s.blkIdx * s.stride.toNat + j)) }) ∨
    (s.blkIdx * s.stride.toNat + s.stride.toNat ≤ s.plen ∧
      s.pay.size < s.blkIdx * s.stride.toNat + s.stride.toNat ∧ blkFetch s = .fault .outsidePay) := by
  unfold blkFetch Memory.readBytes
  by_cases h : s.plen < s.blkIdx * s.stride.toNat + s.stride.toNat
  · simp [h]
  · rw [if_neg h]
    by_cases hp : s.blkIdx * s.stride.toNat + s.stride.toNat ≤ s.pay.size
    · rw [if_pos hp]
      exact .inr (.inl ⟨by omega, hp, rfl⟩)
    · rw [if_neg hp]
      exact .inr (.inr ⟨by omega, by omega, rfl⟩)

/-- `DISPATCH` of a fetched block of the format's length is the format's block decoder. -/
theorem dispatch_bc1 {s : State} {bs : List Byte} (hf : s.fmt = .bc1) (hb : s.blk = some bs) (hl : bs.length = 8) :
    dispatch s = .next (bc1Dec (le64 bs) s) := by
  simp [dispatch, hf, hb, hl]

theorem dispatch_bc3 {s : State} {bs : List Byte} (hf : s.fmt = .bc3) (hb : s.blk = some bs) (hl : bs.length = 16) :
    dispatch s = .next (bc3Dec (le128 bs) s) := by
  simp [dispatch, hf, hb, hl]

/-! ### The pixel store -/

theorem pixelAddr_end {w h x y : Nat} (hx : x < w) (hy : y < h) : pixelAddr w x y + 4 ≤ w * h * 4 := by
  unfold pixelAddr
  have h1 : y * w + w ≤ w * h := by
    calc y * w + w = (y + 1) * w := by ring
      _ ≤ h * w := Nat.mul_le_mul_right w hy
      _ = w * h := Nat.mul_comm h w
  omega

@[simp] theorem Pixel.length_bytes (p : Pixel) : p.bytes.length = 4 := rfl

/-- The address `a` lies in pixel `(x, y)` of an image of width `w`. -/
theorem pixelAddr_iff {w x y a : Nat} (hx : x < w) :
    (pixelAddr w x y ≤ a ∧ a < pixelAddr w x y + 4) ↔ a / 4 % w = x ∧ a / 4 / w = y := by
  have hw : 0 < w := by omega
  have h1 : (pixelAddr w x y ≤ a ∧ a < pixelAddr w x y + 4) ↔ a / 4 = y * w + x := by
    unfold pixelAddr
    omega
  rw [h1]
  constructor
  · intro h
    rw [h]
    constructor
    · rw [Nat.add_comm, Nat.add_mul_mod_self_right, Nat.mod_eq_of_lt hx]
    · rw [Nat.add_comm, Nat.add_mul_div_right _ _ hw, Nat.div_eq_of_lt hx, Nat.zero_add]
  · rintro ⟨rfl, rfl⟩
    rw [Nat.mul_comm]
    exact (Nat.div_add_mod _ _).symm

/-- One pixel of the patch: it always succeeds on an image of the right size, and writes its pixel or nothing. -/
theorem storePixel_spec {patch : Vector Pixel 16} {br bc w h : Nat} (p : Fin 16) {m : Memory} (hm : m.wf = true)
    (hs : m.size = w * h * 4) :
    ∃ m', storePixel patch br bc w h p m = some m' ∧ m'.wf = true ∧ m'.size = m.size ∧
      ∀ a, m'.read a =
        if a < m.size ∧ a / 4 % w = bc * 4 + p.val % 4 ∧ a / 4 / w = br * 4 + p.val / 4 then
          (patch.get p).bytes.getD (a % 4) 0
        else m.read a := by
  unfold storePixel
  by_cases hc : bc * 4 + p.val % 4 < w ∧ br * 4 + p.val / 4 < h
  · rw [if_pos hc]
    have hend := pixelAddr_end hc.1 hc.2
    obtain ⟨m', hw⟩ : ∃ m', m.writeBytes (pixelAddr w (bc * 4 + p.val % 4) (br * 4 + p.val / 4))
        (patch.get p).bytes = some m' := by
      unfold Memory.writeBytes
      rw [if_pos (by simpa [hs] using hend)]
      exact ⟨_, rfl⟩
    obtain ⟨-, hsz, hwf, hr⟩ := Memory.writeBytes_spec hm hw
    refine ⟨m', hw, hwf, hsz, fun a => ?_⟩
    rw [hr a, Pixel.length_bytes]
    by_cases ha : a / 4 % w = bc * 4 + p.val % 4 ∧ a / 4 / w = br * 4 + p.val / 4
    · have hlt := (pixelAddr_iff hc.1).mpr ha
      rw [if_pos hlt, if_pos ⟨by omega, ha⟩]
      congr 1
      unfold pixelAddr at hlt ⊢
      omega
    · rw [if_neg fun hh => ha ((pixelAddr_iff hc.1).mp hh), if_neg fun hh => ha hh.2]
  · rw [if_neg hc]
    refine ⟨m, rfl, hm, rfl, fun a => ?_⟩
    rw [if_neg]
    rintro ⟨ha, hx, hy⟩
    apply hc
    have hw : 0 < w := by
      rcases Nat.eq_zero_or_pos w with rfl | h
      · rw [Nat.zero_mul, Nat.zero_mul] at hs
        omega
      · exact h
    have hx' : a / 4 % w < w := Nat.mod_lt _ hw
    have hy' : a / 4 / w < h := by
      rw [Nat.div_lt_iff_lt_mul hw, Nat.mul_comm h w]
      omega
    omega

/-- The pixels of a list of places, all of them, and nothing else. -/
theorem storePixels_spec {patch : Vector Pixel 16} {br bc w h : Nat} :
    ∀ (ps : List (Fin 16)) (m : Memory), m.wf = true → m.size = w * h * 4 →
      ∃ m', storePixels patch br bc w h ps m = some m' ∧ m'.wf = true ∧ m'.size = m.size ∧
        ∀ a, m'.read a =
          if a < m.size ∧ a / 4 % w / 4 = bc ∧ a / 4 / w / 4 = br ∧
              Fin.ofNat 16 (a / 4 / w % 4 * 4 + a / 4 % w % 4) ∈ ps then
            (patch.get (Fin.ofNat 16 (a / 4 / w % 4 * 4 + a / 4 % w % 4))).bytes.getD (a % 4) 0
          else m.read a
  | [], m, hm, _ => ⟨m, rfl, hm, rfl, fun a => by simp⟩
  | p :: ps, m, hm, hs => by
    obtain ⟨m1, h1, hwf1, hs1, hr1⟩ := storePixel_spec (patch := patch) (br := br) (bc := bc) p hm hs
    obtain ⟨m2, h2, hwf2, hs2, hr2⟩ := storePixels_spec (patch := patch) (br := br) (bc := bc) (w := w) (h := h) ps m1
      hwf1 (by omega)
    refine ⟨m2, by simp [storePixels, h1, h2], hwf2, by omega, fun a => ?_⟩
    rw [hr2 a, hr1 a, hs1]
    have hp : Fin.ofNat 16 (a / 4 / w % 4 * 4 + a / 4 % w % 4) = p ↔
        a / 4 / w % 4 = p.val / 4 ∧ a / 4 % w % 4 = p.val % 4 := by
      rw [Fin.ext_iff, Fin.val_ofNat]
      omega
    by_cases hps : Fin.ofNat 16 (a / 4 / w % 4 * 4 + a / 4 % w % 4) ∈ ps
    · simp only [hps, List.mem_cons, or_true, and_true]
      by_cases hc : a < m.size ∧ a / 4 % w / 4 = bc ∧ a / 4 / w / 4 = br
      · rw [if_pos hc, if_pos hc]
      · rw [if_neg hc, if_neg hc, if_neg]
        omega
    · simp only [hps, List.mem_cons, or_false, and_false, if_false]
      by_cases hc : a < m.size ∧ a / 4 % w = bc * 4 + p.val % 4 ∧ a / 4 / w = br * 4 + p.val / 4
      · rw [if_pos hc, if_pos ⟨hc.1, by omega, by omega, hp.mpr (by omega)⟩, hp.mpr (by omega)]
      · rw [if_neg hc, if_neg]
        rintro ⟨h3, h4, h5, h6⟩
        rw [hp] at h6
        omega

/-- On an image of the right size the pixel store always succeeds and keeps the size, in canonical form or not. -/
theorem storePixels_isSome {patch : Vector Pixel 16} {br bc w h : Nat} :
    ∀ (ps : List (Fin 16)) (m : Memory), m.size = w * h * 4 →
      ∃ m', storePixels patch br bc w h ps m = some m' ∧ m'.size = m.size
  | [], m, _ => ⟨m, rfl, rfl⟩
  | p :: ps, m, hs => by
    obtain ⟨m1, h1, hs1⟩ : ∃ m1, storePixel patch br bc w h p m = some m1 ∧ m1.size = m.size := by
      unfold storePixel
      by_cases hc : bc * 4 + p.val % 4 < w ∧ br * 4 + p.val / 4 < h
      · rw [if_pos hc]
        have hend := pixelAddr_end hc.1 hc.2
        unfold Memory.writeBytes
        rw [if_pos (by simpa [hs] using hend)]
        exact ⟨_, rfl, Memory.size_writeList _ _ _⟩
      · rw [if_neg hc]
        exact ⟨m, rfl, rfl⟩
    obtain ⟨m2, h2, hs2⟩ := storePixels_isSome (patch := patch) (br := br) (bc := bc) (w := w) (h := h) ps m1 (by omega)
    exact ⟨m2, by simp [storePixels, h1, h2], by omega⟩

/-- `PIXSTORE` only writes `IMG`. -/
theorem pixStore_eq_next {s t : State} (h : pixStore s = .next t) : ∃ m, t = { s with img := m } := by
  unfold pixStore at h
  split at h
  · next m _ => exact ⟨m, by cases h; rfl⟩
  · cases h

/-! ### The loop -/

/-- `BLKNEXT` writes `BLK`, or completes the command. -/
theorem blkNext_cases (s : State) :
    (∃ r c, blkNext s = { s with br := r, bc := c }) ∨ blkNext s = completeDecimg s := by
  unfold blkNext
  split
  · exact .inl ⟨s.br, _, rfl⟩
  · split
    · exact .inl ⟨_, _, rfl⟩
    · exact .inr rfl

theorem blockLoop_succ (n : Nat) (s : State) :
    blockLoop (n + 1) s = andThen (processBlock s) fun t => blockLoop n (blkNext t) := rfl

end Sys2Proof.Machine
end

