-- ==== Sys2Proof/Laws/Blocks.lean ====
section
/-! SUPPORT. What the fields, the arithmetic and the entries of the block decoders are, as numbers. -/

namespace Sys2Proof.Machine

/-! ### Fields -/

theorem toNat_red5 (c : Half) : (red5 c).toNat = c.toNat / 2048 := by
  have := c.isLt
  simp only [red5, BitVec.extractLsb'_toNat, Nat.shiftRight_eq_div_pow]
  omega

theorem toNat_green6 (c : Half) : (green6 c).toNat = c.toNat / 32 % 64 := by
  simp only [green6, BitVec.extractLsb'_toNat, Nat.shiftRight_eq_div_pow]

theorem toNat_blue5 (c : Half) : (blue5 c).toNat = c.toNat % 32 := by
  simp only [blue5, BitVec.extractLsb'_toNat, Nat.shiftRight_eq_div_pow]
  omega

theorem toNat_selector2 (idx : Word) (p : Nat) : (selector2 idx p).toNat = idx.toNat / 2 ^ (2 * p) % 4 := by
  simp only [selector2, BitVec.extractLsb'_toNat, Nat.shiftRight_eq_div_pow]

theorem toNat_selector3 (abits : BitVec 48) (p : Nat) : (selector3 abits p).toNat = abits.toNat / 2 ^ (3 * p) % 8 := by
  simp only [selector3, BitVec.extractLsb'_toNat, Nat.shiftRight_eq_div_pow]

theorem selector2_toFin (idx : Word) (p : Nat) : (selector2 idx p).toFin = Fin.ofNat 4 (idx.toNat / 2 ^ (2 * p)) :=
  Fin.ext (toNat_selector2 idx p)

theorem selector3_toFin (abits : BitVec 48) (p : Nat) :
    (selector3 abits p).toFin = Fin.ofNat 8 (abits.toNat / 2 ^ (3 * p)) :=
  Fin.ext (toNat_selector3 abits p)

/-! ### Arithmetic -/

theorem toNat_ofNat8 {n : Nat} (h : n < 256) : (BitVec.ofNat 8 n).toNat = n := by
  simpa using h

theorem toNat_expand5 (v : BitVec 5) : (expand5 v).toNat = v.toNat * 255 / 31 := by
  have := v.isLt
  exact toNat_ofNat8 (by omega)

theorem toNat_expand6 (v : BitVec 6) : (expand6 v).toNat = v.toNat * 255 / 63 := by
  have := v.isLt
  exact toNat_ofNat8 (by omega)

theorem toNat_mixThird (a b : Byte) : (mixThird a b).toNat = (2 * a.toNat + b.toNat) / 3 := by
  have := a.isLt
  have := b.isLt
  exact toNat_ofNat8 (by omega)

theorem toNat_mixHalf (a b : Byte) : (mixHalf a b).toNat = (a.toNat + b.toNat) / 2 := by
  have := a.isLt
  have := b.isLt
  exact toNat_ofNat8 (by omega)

/-- The two weights of an interpolated entry add up to the divisor. -/
theorem rampPair_sum (k : Config.RampWeights) {d i : Nat} (h2 : 2 ≤ i) (hd : i ≤ d) :
    (rampPair k d i).1 + (rampPair k d i).2 = d := by
  cases k <;> simp only [rampPair] <;> omega

theorem toNat_rampMix (k : Config.RampWeights) {d i : Nat} (h2 : 2 ≤ i) (hd : i ≤ d) (a0 a1 : Byte) :
    (rampMix k d i a0 a1).toNat = ((rampPair k d i).1 * a0.toNat + (rampPair k d i).2 * a1.toNat) / d := by
  apply toNat_ofNat8
  rw [Nat.div_lt_iff_lt_mul (by omega)]
  have h0 := Nat.mul_le_mul_left (rampPair k d i).1 (Nat.le_of_lt_succ a0.isLt)
  have h1 := Nat.mul_le_mul_left (rampPair k d i).2 (Nat.le_of_lt_succ a1.isLt)
  have hs := rampPair_sum k h2 hd
  have : (rampPair k d i).1 * 255 + (rampPair k d i).2 * 255 = d * 255 := by rw [← Nat.add_mul, hs]
  omega

/-! ### Entries -/

theorem Vector.get_set4 {α : Type} (p : Vector α 4) (i : Nat) (x : α) (h : i < 4) (j : Fin 4) :
    (p.set i x).get j = if i = j.val then x else p.get j := by
  simp only [Vector.get_eq_getElem, Vector.getElem_set]

theorem palBase_entries (s : State) :
    (palBase s).pal.get 0 = (endpoint s.c0).solid ∧ (palBase s).pal.get 1 = (endpoint s.c1).solid ∧
    (palBase s).pal.get 2 = s.pal.get 2 ∧ (palBase s).pal.get 3 = s.pal.get 3 := by
  simp [palBase, Vector.get_set4]

theorem pal4_entries (s : State) :
    (pal4 s).pal.get 0 = s.pal.get 0 ∧ (pal4 s).pal.get 1 = s.pal.get 1 ∧
    (pal4 s).pal.get 2 = (Rgb.mix mixThird s.e0 s.e1).solid ∧
    (pal4 s).pal.get 3 = (Rgb.mix mixThird s.e1 s.e0).solid := by
  simp [pal4, Vector.get_set4]

theorem pal3t_entries (s : State) :
    (pal3t s).pal.get 0 = s.pal.get 0 ∧ (pal3t s).pal.get 1 = s.pal.get 1 ∧
    (pal3t s).pal.get 2 = (Rgb.mix mixHalf s.e0 s.e1).solid ∧ (pal3t s).pal.get 3 = Pixel.clear := by
  simp [pal3t, Vector.get_set4]

theorem bc1Pixels_patch (s : State) (q : Fin 16) :
    (bc1Pixels s).patch.get q = s.pal.get (Fin.ofNat 4 (s.idx.toNat / 2 ^ (2 * q.val))) := by
  simp only [bc1Pixels, Vector.get_eq_getElem, Vector.getElem_ofFn, ← selector2_toFin]

theorem bc3Pixels_patch (s : State) (q : Fin 16) :
    (bc3Pixels s).patch.get q =
      Pixel.withAlpha (s.pal.get (Fin.ofNat 4 (s.idx.toNat / 2 ^ (2 * q.val))))
        (s.ramp.get (Fin.ofNat 8 (s.abits.toNat / 2 ^ (3 * q.val)))) := by
  simp only [bc3Pixels, Vector.get_eq_getElem, Vector.getElem_ofFn, ← selector2_toFin, ← selector3_toFin]

/-- Every entry of the 8-value ramp. -/
theorem ramp8_get (k : Config.RampWeights) (a0 a1 : Byte) (i : Fin 8) :
    (ramp8 k a0 a1).get i = if i.val = 0 then a0 else if i.val = 1 then a1 else rampMix k 7 i.val a0 a1 := by
  fin_cases i <;> rfl

/-- Every entry of the 6-value ramp. -/
theorem ramp6_get (k : Config.RampWeights) (a0 a1 : Byte) (i : Fin 8) :
    (ramp6 k a0 a1).get i =
      if i.val = 0 then a0 else if i.val = 1 then a1 else if i.val = 6 then 0 else if i.val = 7 then 255
      else rampMix k 5 i.val a0 a1 := by
  fin_cases i <;> rfl

end Sys2Proof.Machine
end

