-- ==== Sys2Proof/Laws/Bytes.lean ====
section
/-! SUPPORT. The laws of the byte orders, the block fields and the chunk frame. -/

namespace Sys2Proof.Machine

@[simp] theorem length_leBytes : ∀ n v, (leBytes n v).length = n
  | 0, _ => rfl
  | n + 1, v => by simp [leBytes, length_leBytes n]

theorem leNat_leBytes : ∀ n v, leNat (leBytes n v) = v % 256 ^ n
  | 0, v => by simp [leBytes, leNat, Nat.mod_one]
  | n + 1, v => by
    simp only [leBytes, leNat, leNat_leBytes n]
    rw [Nat.pow_succ, Nat.mul_comm (256 ^ n) 256, Nat.mod_mul]
    simp

theorem leNat_lt : ∀ bs : List Byte, leNat bs < 256 ^ bs.length
  | [] => by simp [leNat]
  | b :: bs => by
    have := leNat_lt bs
    have hb := b.isLt
    simp only [leNat, List.length_cons, Nat.pow_succ]
    omega

theorem leBytes_leNat : ∀ bs : List Byte, leBytes bs.length (leNat bs) = bs
  | [] => rfl
  | b :: bs => by
    have hb := b.isLt
    have h1 : (b.toNat + 256 * leNat bs) / 256 = leNat bs := by omega
    have h2 : BitVec.ofNat 8 (b.toNat + 256 * leNat bs) = b := by
      apply BitVec.eq_of_toNat_eq
      simp
      omega
    simp only [List.length_cons, leNat, leBytes, h1, h2, leBytes_leNat bs]

theorem le64_leBytes (w : BitVec 64) : le64 (leBytes 8 w.toNat) = w := by
  apply BitVec.eq_of_toNat_eq
  simp only [le64, leNat_leBytes, BitVec.toNat_ofNat]
  have := w.isLt
  omega

theorem le128_leBytes (w : BitVec 128) : le128 (leBytes 16 w.toNat) = w := by
  apply BitVec.eq_of_toNat_eq
  simp only [le128, leNat_leBytes, BitVec.toNat_ofNat]
  have := w.isLt
  omega

theorem leBytes_le64 {bs : List Byte} (h : bs.length = 8) : leBytes 8 (le64 bs).toNat = bs := by
  have h1 := leNat_lt bs
  have h2 := leBytes_leNat bs
  rw [h] at h1 h2
  have h3 : leNat bs < 2 ^ 64 := by simpa using h1
  simp only [le64, BitVec.toNat_ofNat, Nat.mod_eq_of_lt h3]
  exact h2

theorem leBytes_le128 {bs : List Byte} (h : bs.length = 16) : leBytes 16 (le128 bs).toNat = bs := by
  have h1 := leNat_lt bs
  have h2 := leBytes_leNat bs
  rw [h] at h1 h2
  have h3 : leNat bs < 2 ^ 128 := by simpa using h1
  simp only [le128, BitVec.toNat_ofNat, Nat.mod_eq_of_lt h3]
  exact h2

/-! ### Fields of a block -/

/-- A field that lies in the low part of a joined word. -/
theorem extract_append_low {n m : Nat} (x : BitVec n) (y : BitVec m) {l : Nat} (k : Nat) (h : k + l ≤ m) :
    (x ++ y).extractLsb' k l = y.extractLsb' k l := by
  ext i hi
  have h1 : k + i < m := by omega
  simp [BitVec.getLsbD_append, h1]

/-- A field that lies in the high part of a joined word. -/
theorem extract_append_high {n m : Nat} (x : BitVec n) (y : BitVec m) {l : Nat} (k : Nat) :
    (x ++ y).extractLsb' (m + k) l = x.extractLsb' k l := by
  ext i hi
  have h1 : ¬ m + k + i < m := by omega
  have h2 : m + k + i - m = k + i := by omega
  simp [BitVec.getLsbD_append, h1, h2]

theorem extract_all {n : Nat} (x : BitVec n) : x.extractLsb' 0 n = x := by
  ext i hi
  simp

@[simp] theorem b64C0_of (c0 c1 : Half) (idx : Word) : b64C0 (b64Of c0 c1 idx) = c0 :=
  (extract_append_low (idx ++ c1) c0 0 (by omega)).trans (extract_all c0)

@[simp] theorem b64C1_of (c0 c1 : Half) (idx : Word) : b64C1 (b64Of c0 c1 idx) = c1 :=
  ((extract_append_high (idx ++ c1) c0 0).trans (extract_append_low idx c1 0 (by omega))).trans (extract_all c1)

@[simp] theorem b64Idx_of (c0 c1 : Half) (idx : Word) : b64Idx (b64Of c0 c1 idx) = idx :=
  ((extract_append_high (idx ++ c1) c0 16).trans (extract_append_high idx c1 0)).trans (extract_all idx)

@[simp] theorem b128A0_of (a0 a1 : Byte) (ab : BitVec 48) (c0 c1 : Half) (idx : Word) :
    b128A0 (b128Of a0 a1 ab c0 c1 idx) = a0 :=
  (extract_append_low (idx ++ c1 ++ c0 ++ ab ++ a1) a0 0 (by omega)).trans (extract_all a0)

@[simp] theorem b128A1_of (a0 a1 : Byte) (ab : BitVec 48) (c0 c1 : Half) (idx : Word) :
    b128A1 (b128Of a0 a1 ab c0 c1 idx) = a1 :=
  ((extract_append_high (idx ++ c1 ++ c0 ++ ab ++ a1) a0 0).trans
    (extract_append_low (idx ++ c1 ++ c0 ++ ab) a1 0 (by omega))).trans (extract_all a1)

@[simp] theorem b128Abits_of (a0 a1 : Byte) (ab : BitVec 48) (c0 c1 : Half) (idx : Word) :
    b128Abits (b128Of a0 a1 ab c0 c1 idx) = ab :=
  (((extract_append_high (idx ++ c1 ++ c0 ++ ab ++ a1) a0 8).trans
    (extract_append_high (idx ++ c1 ++ c0 ++ ab) a1 0)).trans
    (extract_append_low (idx ++ c1 ++ c0) ab 0 (by omega))).trans (extract_all ab)

@[simp] theorem b128C0_of (a0 a1 : Byte) (ab : BitVec 48) (c0 c1 : Half) (idx : Word) :
    b128C0 (b128Of a0 a1 ab c0 c1 idx) = c0 :=
  ((((extract_append_high (idx ++ c1 ++ c0 ++ ab ++ a1) a0 56).trans
    (extract_append_high (idx ++ c1 ++ c0 ++ ab) a1 48)).trans
    (extract_append_high (idx ++ c1 ++ c0) ab 0)).trans
    (extract_append_low (idx ++ c1) c0 0 (by omega))).trans (extract_all c0)

@[simp] theorem b128C1_of (a0 a1 : Byte) (ab : BitVec 48) (c0 c1 : Half) (idx : Word) :
    b128C1 (b128Of a0 a1 ab c0 c1 idx) = c1 :=
  (((((extract_append_high (idx ++ c1 ++ c0 ++ ab ++ a1) a0 72).trans
    (extract_append_high (idx ++ c1 ++ c0 ++ ab) a1 64)).trans
    (extract_append_high (idx ++ c1 ++ c0) ab 16)).trans
    (extract_append_high (idx ++ c1) c0 0)).trans
    (extract_append_low idx c1 0 (by omega))).trans (extract_all c1)

@[simp] theorem b128Idx_of (a0 a1 : Byte) (ab : BitVec 48) (c0 c1 : Half) (idx : Word) :
    b128Idx (b128Of a0 a1 ab c0 c1 idx) = idx :=
  (((((extract_append_high (idx ++ c1 ++ c0 ++ ab ++ a1) a0 88).trans
    (extract_append_high (idx ++ c1 ++ c0 ++ ab) a1 80)).trans
    (extract_append_high (idx ++ c1 ++ c0) ab 32)).trans
    (extract_append_high (idx ++ c1) c0 16)).trans
    (extract_append_high idx c1 0)).trans (extract_all idx)

/-- The three fields of a B64 word are all of it (30_encoding.md R89: no bit is ignored). -/
theorem b64Of_fields (b : BitVec 64) : b64Of (b64C0 b) (b64C1 b) (b64Idx b) = b := by
  apply BitVec.eq_of_toNat_eq
  have := b.isLt
  simp only [b64Of, b64C0, b64C1, b64Idx, BitVec.toNat_append, BitVec.extractLsb'_toNat]
  rw [← Nat.shiftLeft_add_eq_or_of_lt (by omega), ← Nat.shiftLeft_add_eq_or_of_lt (by omega)]
  simp only [Nat.shiftLeft_eq, Nat.shiftRight_eq_div_pow]
  omega

/-- The six fields of a B128 word are all of it (30_encoding.md R89). -/
theorem b128Of_fields (b : BitVec 128) :
    b128Of (b128A0 b) (b128A1 b) (b128Abits b) (b128C0 b) (b128C1 b) (b128Idx b) = b := by
  apply BitVec.eq_of_toNat_eq
  have := b.isLt
  simp only [b128Of, b128A0, b128A1, b128Abits, b128C0, b128C1, b128Idx, BitVec.toNat_append,
    BitVec.extractLsb'_toNat]
  rw [← Nat.shiftLeft_add_eq_or_of_lt (by omega), ← Nat.shiftLeft_add_eq_or_of_lt (by omega),
    ← Nat.shiftLeft_add_eq_or_of_lt (by omega), ← Nat.shiftLeft_add_eq_or_of_lt (by omega),
    ← Nat.shiftLeft_add_eq_or_of_lt (by omega)]
  simp only [Nat.shiftLeft_eq, Nat.shiftRight_eq_div_pow]
  omega

/-! ### Big-endian fields and the frame -/

@[simp] theorem length_be32 (v : Word) : (be32 v).length = 4 := rfl

/-- `BE32` is undone by reading the byte at the lowest offset with the most weight (00_scope.md R11). -/
@[simp] theorem beNat_be32 (v : Word) : beNat (be32 v) = v.toNat := by
  have := v.isLt
  simp only [beNat, be32, List.reverse_cons, List.reverse_nil, List.nil_append, List.cons_append, leNat,
    BitVec.extractLsb'_toNat, Nat.shiftRight_eq_div_pow]
  omega

@[simp] theorem length_tag (t : Tag) : t.bytes.length = 4 := rfl

@[simp] theorem length_chunkFrame (tag : Tag) (data : List Byte) :
    (chunkFrame tag data).length = 12 + data.length := by
  simp [chunkFrame]
  omega

/-- A frame is read back as its tag and data (30_encoding.md R92). -/
theorem decodeChk_chunkFrame (tag : Tag) (data : List Byte) (h : data.length < 2 ^ 32) :
    decodeChk (chunkFrame tag data) = .ok (.chunk tag data) := by
  have hn : beNat (be32 (BitVec.ofNat 32 data.length)) = data.length := by
    rw [beNat_be32, BitVec.toNat_ofNat, Nat.mod_eq_of_lt h]
  simp only [chunkFrame, be32, Tag.bytes, List.cons_append, List.nil_append, decodeChk] at hn ⊢
  simp [hn]

end Sys2Proof.Machine
end

