-- ==== Sys2Proof/Laws/Encoder.lean ====
section
/-! SUPPORT. For the checksum, the chunk and each phase of the encoder, one lemma that says everything it can do. -/

namespace Sys2Proof.Machine

/-! ### The checksum -/

theorem crcAbsorbAll_append (c : Word) : ∀ xs ys : List Byte,
    crcAbsorbAll c (xs ++ ys) = crcAbsorbAll (crcAbsorbAll c xs) ys
  | [], _ => rfl
  | x :: xs, ys => by
    simp only [List.cons_append, crcAbsorbAll]
    exact crcAbsorbAll_append _ xs ys

/-- A shift step is a bijection: bit 31 of the result tells which arm was taken. -/
theorem crcShift_injective (c d : Word) (h : crcShift c = crcShift d) : c = d := by
  have key : ∀ x : Word, ((crcShift x).getLsbD 31 = x.getLsbD 0) := by
    intro x
    unfold crcShift
    split
    · next hx => simp [hx]
    · next hx => simpa using hx
  have h0 : c.getLsbD 0 = d.getLsbD 0 := by rw [← key c, ← key d, h]
  have hs : c >>> 1 = d >>> 1 := by
    unfold crcShift at h
    rw [h0] at h
    split at h
    · simpa using h
    · exact h
  apply BitVec.eq_of_getLsbD_eq
  intro i hi
  cases i with
  | zero => exact h0
  | succ i =>
    have := congrArg (fun v : Word => v.getLsbD i) hs
    simpa [BitVec.getLsbD_ushiftRight, Nat.add_comm] using this

theorem crcShifts_injective : ∀ n c d, crcShifts n c = crcShifts n d → c = d
  | 0, _, _, h => h
  | n + 1, c, d, h => crcShift_injective c d (crcShifts_injective n _ _ h)

/-! ### Chunks -/

theorem chunkFits_iff (s : State) (n : Nat) : n ≤ chunkLimit s.config.chunkMax ↔ s.ChunkFits n := by
  unfold State.ChunkFits chunkLimit
  cases s.config.chunkMax <;> simp <;> omega

/-- `CHUNK` appends its frame, writes `TAG`, `DLEN`, `CRC`, and never faults. -/
theorem chunk_spec (tag : Tag) (data : List Byte) (s : State) (h : s.ChunkFits data.length) :
    chunk tag data s = .next { s with
      tag := tag, dlen := BitVec.ofNat 32 data.length, crc := crcAbsorbAll crcStart (tag.bytes ++ data)
      out := (((s.out.append (be32 (BitVec.ofNat 32 data.length))).append tag.bytes).append data).append
        (be32 (crc32Of (tag.bytes ++ data))) } := by
  unfold chunk
  rw [if_pos ((chunkFits_iff s _).mpr h)]
  simp only [emit, crcUpdAll, crcInit, loadChunk, crc32Of]

theorem chunk_refused (tag : Tag) (data : List Byte) (s : State) (h : ¬ s.ChunkFits data.length) :
    chunk tag data s = .refused .chunkTooLong := by
  unfold chunk
  rw [if_neg fun hl => h ((chunkFits_iff s _).mp hl)]

/-- What `CHUNK` leaves in `OUT`. -/
theorem chunk_out {m : Memory} (hm : m.wf = true) (tag : Tag) (data : List Byte) :
    ((((m.append (be32 (BitVec.ofNat 32 data.length))).append tag.bytes).append data).append
      (be32 (crc32Of (tag.bytes ++ data)))).wf = true ∧
    ((((m.append (be32 (BitVec.ofNat 32 data.length))).append tag.bytes).append data).append
      (be32 (crc32Of (tag.bytes ++ data)))).bytes = m.bytes ++ chunkFrame tag data := by
  have h1 := Memory.wf_append hm (be32 (BitVec.ofNat 32 data.length))
  have h2 := Memory.wf_append h1 tag.bytes
  have h3 := Memory.wf_append h2 data
  refine ⟨Memory.wf_append h3 _, ?_⟩
  rw [Memory.bytes_append h3, Memory.bytes_append h2, Memory.bytes_append h1, Memory.bytes_append hm, chunkFrame]
  simp only [List.append_assoc]

/-- Everything a `CHUNK` that answers a next state can have done. -/
theorem chunk_eq_next {tag : Tag} {data : List Byte} {s t : State} (h : chunk tag data s = .next t) :
    ∃ d c m, t = { s with tag := tag, dlen := d, crc := c, out := m } ∧
      (s.out.wf = true → m.wf = true ∧ m.bytes = s.out.bytes ++ chunkFrame tag data) := by
  by_cases hl : s.ChunkFits data.length
  · rw [chunk_spec tag data s hl] at h
    cases h
    exact ⟨_, _, _, rfl, fun hm => chunk_out hm tag data⟩
  · rw [chunk_refused tag data s hl] at h
    cases h

/-! ### Scanlines -/

@[simp] theorem length_scanlines (n : Nat) : ∀ rows (bs : List Byte), bs.length = rows * n →
    (scanlines n rows bs).length = rows * (n + 1)
  | 0, _, _ => by simp [scanlines]
  | rows + 1, bs, h => by
    have h1 : bs.length = rows * n + n := by rw [h]; ring
    simp only [scanlines, List.length_append, List.length_cons, List.length_take]
    rw [length_scanlines n rows (bs.drop n) (by simp; omega)]
    have : (rows + 1) * (n + 1) = rows * (n + 1) + (n + 1) := by ring
    omega

/-- Dropping the filter bytes of the scanlines gives the rows back. -/
theorem dropFilterBytes_scanlines (n : Nat) : ∀ rows (bs : List Byte), bs.length = rows * n →
    dropFilterBytes n rows (scanlines n rows bs) = bs
  | 0, bs, h => by simp_all [dropFilterBytes]
  | rows + 1, bs, h => by
    have h1 : bs.length = rows * n + n := by rw [h]; ring
    have ht : (bs.take n).length = n := by simp; omega
    simp only [scanlines, dropFilterBytes, List.cons_append, List.drop_succ_cons, List.drop_zero]
    rw [List.take_append_of_le_length (by omega), List.drop_append_of_le_length (by omega),
      List.drop_eq_nil_of_le (as := bs.take n) (by omega), List.nil_append, List.take_of_length_le (by omega),
      dropFilterBytes_scanlines n rows (bs.drop n) (by simp; omega), List.take_append_drop]

/-- Rows `r` to `r + n - 1` of a buffer that has them: `SCAN` grows by their records; otherwise a fault. -/
theorem scanRows_spec : ∀ (n r : Nat) (s : State), s.scan.wf = true →
    (r + n) * (s.w.toNat * 4) ≤ s.img.size →
    ∃ m, scanRows n r s = .next { s with
        row := if n = 0 then s.row else BitVec.ofNat 16 (r + n - 1), scan := m } ∧
      m.wf = true ∧
      m.bytes = s.scan.bytes ++ scanlines (s.w.toNat * 4) n (s.img.bytes.drop (r * (s.w.toNat * 4)))
  | 0, r, s, hw, _ => ⟨s.scan, rfl, hw, by simp [scanlines]⟩
  | n + 1, r, s, hw, h => by
    have h1 : (r + (n + 1)) * (s.w.toNat * 4) = r * (s.w.toNat * 4) + s.w.toNat * 4 + n * (s.w.toNat * 4) := by ring
    have hr : r * s.w.toNat * 4 = r * (s.w.toNat * 4) := by ring
    have hrow : s.img.readBytes (r * s.w.toNat * 4) (s.w.toNat * 4) =
        some ((s.img.bytes.drop (r * (s.w.toNat * 4))).take (s.w.toNat * 4)) := by
      rw [hr]
      exact Memory.readBytes_eq_slice (by omega)
    have hstep : scanRow r s = .next { s with
        row := BitVec.ofNat 16 r
        scan := s.scan.append (0 :: (s.img.bytes.drop (r * (s.w.toNat * 4))).take (s.w.toNat * 4)) } := by
      unfold scanRow
      rw [hrow]
    obtain ⟨m, h2, h3, h4⟩ := scanRows_spec n (r + 1) { s with
        row := BitVec.ofNat 16 r
        scan := s.scan.append (0 :: (s.img.bytes.drop (r * (s.w.toNat * 4))).take (s.w.toNat * 4)) }
      (Memory.wf_append hw _) (by
        have : (r + 1 + n) * (s.w.toNat * 4) = (r + (n + 1)) * (s.w.toNat * 4) := by ring
        simpa [this] using h)
    refine ⟨m, ?_, h3, ?_⟩
    · unfold scanRows
      rw [hstep, andThen_next, h2]
      cases n with
      | zero => simp
      | succ n => simp [Nat.add_assoc, Nat.add_comm 1]
    · rw [h4]
      simp only [Memory.bytes_append hw, scanlines, List.drop_drop, List.append_assoc]
      congr 4
      ring

/-- Every row operation writes `ROW` and `SCAN` only. -/
theorem scanRows_frame : ∀ (n r : Nat) (s t : State), scanRows n r s = .next t →
    ∃ v m, t = { s with row := v, scan := m } ∧ (s.scan.wf = true → m.wf = true)
  | 0, _, s, t, h => by
    cases h
    exact ⟨s.row, s.scan, rfl, id⟩
  | n + 1, r, s, t, h => by
    obtain ⟨u, hu, ht⟩ := andThen_eq_next.mp h
    unfold scanRow at hu
    split at hu
    · cases hu
      obtain ⟨v, m, rfl, hm⟩ := scanRows_frame n (r + 1) _ _ ht
      exact ⟨v, m, rfl, fun hw => hm (Memory.wf_append hw _)⟩
    · cases hu

/-! ### The phases -/

/-- Everything `ENC.VALIDATE` can do. -/
theorem encValidate_cases (s : State) :
    (s.blen ≠ s.w.toNat * s.h.toNat * 4 ∧ encValidate s = .next (raise .bufferSizeMismatch s)) ∨
    (s.blen = s.w.toNat * s.h.toNat * 4 ∧ (s.w = 0 ∨ s.h = 0) ∧ encValidate s = .refused .zeroDimensionEncode) ∨
    (s.blen = s.w.toNat * s.h.toNat * 4 ∧ s.w ≠ 0 ∧ s.h ≠ 0 ∧ encValidate s = .next s) := by
  unfold encValidate
  by_cases hb : s.blen ≠ s.w.toNat * s.h.toNat * 4
  · exact .inl ⟨hb, if_pos hb⟩
  · rw [if_neg hb]
    rw [not_not] at hb
    by_cases hz : s.w = 0 ∨ s.h = 0
    · exact .inr (.inl ⟨hb, hz, if_pos hz⟩)
    · rw [if_neg hz]
      rw [not_or] at hz
      exact .inr (.inr ⟨hb, hz.1, hz.2, rfl⟩)

/-- Everything `SCAN` that answers a next state can have done. -/
theorem scan_eq_next {s t : State} (h : scan s = .next t) :
    ∃ v m, t = { s with phase := .scan, row := v, scan := m } ∧ m.wf = true := by
  obtain ⟨v, m, rfl, hm⟩ := scanRows_frame _ _ _ _ h
  exact ⟨v, m, rfl, hm rfl⟩

end Sys2Proof.Machine
end

