-- ==== Sys2Proof/Laws/Loop.lean ====
section
/-! SUPPORT. The block loop of `DECIMG`: what it keeps, where it ends, and what it leaves in `IMG`. -/

namespace Sys2Proof.Machine

/-- What the block loop never writes. -/
structure LoopFrame (s t : State) : Prop where
  op : t.op = s.op
  fmt : t.fmt = s.fmt
  w : t.w = s.w
  h : t.h = s.h
  plen : t.plen = s.plen
  blen : t.blen = s.blen
  bprow : t.bprow = s.bprow
  bpcol : t.bpcol = s.bpcol
  stride : t.stride = s.stride
  phase : t.phase = s.phase
  row : t.row = s.row
  crc : t.crc = s.crc
  tag : t.tag = s.tag
  dlen : t.dlen = s.dlen
  pay : t.pay = s.pay
  scan : t.scan = s.scan
  z : t.z = s.z
  out : t.out = s.out
  res : t.res = s.res
  config : t.config = s.config
  alpha : s.fmt = .bc1 → t.a0 = s.a0 ∧ t.a1 = s.a1 ∧ t.abits = s.abits ∧ t.amode8 = s.amode8 ∧ t.ramp = s.ramp
  mode : s.fmt = .bc3 → t.mode4 = s.mode4

theorem LoopFrame.refl (s : State) : LoopFrame s s := by
  constructor <;> first | rfl | (intro; exact ⟨rfl, rfl, rfl, rfl, rfl⟩) | (intro; rfl)

theorem LoopFrame.trans {s t u : State} (a : LoopFrame s t) (b : LoopFrame t u) : LoopFrame s u where
  op := b.op.trans a.op
  fmt := b.fmt.trans a.fmt
  w := b.w.trans a.w
  h := b.h.trans a.h
  plen := b.plen.trans a.plen
  blen := b.blen.trans a.blen
  bprow := b.bprow.trans a.bprow
  bpcol := b.bpcol.trans a.bpcol
  stride := b.stride.trans a.stride
  phase := b.phase.trans a.phase
  row := b.row.trans a.row
  crc := b.crc.trans a.crc
  tag := b.tag.trans a.tag
  dlen := b.dlen.trans a.dlen
  pay := b.pay.trans a.pay
  scan := b.scan.trans a.scan
  z := b.z.trans a.z
  out := b.out.trans a.out
  res := b.res.trans a.res
  config := b.config.trans a.config
  alpha := fun h => by
    obtain ⟨h1, h2, h3, h4, h5⟩ := a.alpha h
    obtain ⟨k1, k2, k3, k4, k5⟩ := b.alpha (a.fmt.trans h)
    exact ⟨k1.trans h1, k2.trans h2, k3.trans h3, k4.trans h4, k5.trans h5⟩
  mode := fun h => (b.mode (a.fmt.trans h)).trans (a.mode h)

/-- The index of the block that covers the byte at `a` of an image of width `w` (20_memory.md R52, R62). -/
def blockOf (w a : Nat) : Nat := a / 4 / w / 4 * ((w + 3) / 4) + a / 4 % w / 4

/-- `IMG` holds the decoded pixels of every block before `k` and 0 elsewhere. -/
def Filled (k : Nat) (s : State) : Prop :=
  s.img.wf = true ∧ ∀ a, s.img.read a =
    if a < s.img.size ∧ blockOf s.w.toNat a < k then
      (imagePixel s.config s.fmt s.w.toNat s.plen s.pay.read (a / 4 % s.w.toNat) (a / 4 / s.w.toNat)).bytes.getD (a % 4) 0
    else 0

theorem InLoop.widths {s : State} (h : s.InLoop) :
    s.bprow.toNat = (s.w.toNat + 3) / 4 ∧ s.bpcol.toNat = (s.h.toNat + 3) / 4 ∧ 0 < s.w.toNat ∧ 0 < s.h.toNat := by
  obtain ⟨-, hw, hh⟩ := h.validated
  have hw' : s.w.toNat ≠ 0 := fun e => hw (BitVec.eq_of_toNat_eq e)
  have hh' : s.h.toNat ≠ 0 := fun e => hh (BitVec.eq_of_toNat_eq e)
  exact ⟨by rw [h.gridded.1, toNat_ceilQuarter], by rw [h.gridded.2, toNat_ceilQuarter], by omega, by omega⟩

/-- Two grid positions with one index are one position. -/
theorem grid_unique {n r c r' c' : Nat} (hc : c < n) (hc' : c' < n) : r * n + c = r' * n + c' ↔ r = r' ∧ c = c' := by
  constructor
  · intro h
    have hn : 0 < n := by omega
    have h1 : (r * n + c) / n = r := by
      rw [Nat.add_comm, Nat.add_mul_div_right _ _ hn, Nat.div_eq_of_lt hc, Nat.zero_add]
    have h2 : (r' * n + c') / n = r' := by
      rw [Nat.add_comm, Nat.add_mul_div_right _ _ hn, Nat.div_eq_of_lt hc', Nat.zero_add]
    have hr : r = r' := by rw [← h1, ← h2, h]
    subst hr
    exact ⟨rfl, by omega⟩
  · rintro ⟨rfl, rfl⟩
    rfl

/-- A block decoded from its bytes by `DISPATCH`: the patch of the block decoder on those bytes, whatever the state. -/
theorem dispatch_spec {s : State} {bs : List Byte} (hf : s.fmt.unrecognised = false) (hb : s.blk = some bs)
    (hl : bs.length = strideOf s.fmt) :
    ∃ t, dispatch s = .next t ∧ LoopFrame s t ∧ t.img = s.img ∧ t.br = s.br ∧ t.bc = s.bc ∧ t.status = s.status ∧
      t.pos = s.pos ∧ t.blk = s.blk ∧
      t.patch = match s.fmt with
        | .bc1 => (bc1Dec (le64 bs) { State.reset with config := s.config }).patch
        | .bc3 => (bc3Dec (le128 bs) { State.reset with config := s.config }).patch
        | .other _ => s.patch := by
  cases h : s.fmt with
  | bc1 =>
    rw [h] at hl
    refine ⟨_, dispatch_bc1 h hb hl, ?_⟩
    rw [bc1Dec_eq (le64 bs) s { State.reset with config := s.config }]
    refine ⟨?_, rfl, rfl, rfl, rfl, rfl, rfl, rfl⟩
    constructor <;> first | rfl | (intro; exact ⟨rfl, rfl, rfl, rfl, rfl⟩) | (intro h'; rw [h] at h'; cases h')
  | bc3 =>
    rw [h] at hl
    refine ⟨_, dispatch_bc3 h hb hl, ?_⟩
    rw [bc3Dec_eq (le128 bs) s { State.reset with config := s.config } rfl]
    refine ⟨?_, rfl, rfl, rfl, rfl, rfl, rfl, rfl⟩
    constructor <;> first | rfl | (intro; rfl) | (intro h'; rw [h] at h'; cases h')
  | other n => rw [h] at hf; cases hf

theorem processBlock_spec {s : State} (hs : s.InLoop) (hf : Filled s.blkIdx s) :
    ∃ t, processBlock s = .next t ∧ LoopFrame s t ∧ t.br = s.br ∧ t.bc = s.bc ∧ t.status = s.status ∧ t.pos = s.pos ∧
      t.img.size = s.img.size ∧ Filled (s.blkIdx + 1) t := by
  obtain ⟨hbr, hbc, hw, hh⟩ := InLoop.widths hs
  have hcell : ∀ a, a < s.img.size → (blockOf s.w.toNat a = s.blkIdx ↔
      a / 4 % s.w.toNat / 4 = s.bc.toNat ∧ a / 4 / s.w.toNat / 4 = s.br.toNat) := by
    intro a ha
    have h1 : a / 4 % s.w.toNat < s.w.toNat := Nat.mod_lt _ hw
    unfold blockOf State.blkIdx
    rw [hbr, grid_unique (by omega) (by rw [← hbr]; exact hs.col)]
    exact and_comm
  unfold processBlock
  rcases blkFetch_cases s with ⟨hlt, he⟩ | ⟨hle, hpay, he⟩ | ⟨hle, hpay, he⟩
  · refine ⟨{ s with blk := none }, by rw [he]; rfl, ?_, rfl, rfl, rfl, rfl, rfl, ?_⟩
    · constructor <;> first | rfl | (intro; exact ⟨rfl, rfl, rfl, rfl, rfl⟩) | (intro; rfl)
    · refine ⟨hf.1, fun a => ?_⟩
      rw [hf.2 a]
      by_cases ha : a < s.img.size
      · simp only [ha, true_and]
        by_cases hk : blockOf s.w.toNat a < s.blkIdx
        · rw [if_pos hk, if_pos (by omega)]
        · rw [if_neg hk]
          by_cases hk' : blockOf s.w.toNat a < s.blkIdx + 1
          · rw [if_pos hk']
            have hk2 : a / 4 / s.w.toNat / 4 * ((s.w.toNat + 3) / 4) + a / 4 % s.w.toNat / 4 = s.blkIdx := by
              unfold blockOf at hk hk'
              omega
            rw [hs.strided] at hlt
            simp only [imagePixel, hk2]
            rw [if_neg (by omega)]
            have : a % 4 < 4 := Nat.mod_lt _ (by omega)
            rcases (by omega : a % 4 = 0 ∨ a % 4 = 1 ∨ a % 4 = 2 ∨ a % 4 = 3) with h | h | h | h <;> rw [h] <;> rfl
          · rw [if_neg hk']
      · simp only [ha, false_and, if_false]
  · obtain ⟨t, ht, hframe, himg, hbr', hbc', hst, hpos, hblk, hpatch⟩ := dispatch_spec
      (s := { s with
        blk := some ((List.range s.stride.toNat).map fun j => s.pay.read (s.blkIdx * s.stride.toNat + j)) })
      hs.validated.1 rfl (by simp [hs.strided])
    obtain ⟨m, hm, hmw, hms, hmr⟩ := storePixels_spec (patch := t.patch) (br := s.br.toNat) (bc := s.bc.toNat)
      (w := s.w.toNat) (h := s.h.toNat) (List.finRange 16) s.img hf.1 hs.sized
    have hfr : LoopFrame s { t with img := m } := by
      obtain ⟨f1, f2, f3, f4, f5, f6, f7, f8, f9, f10, f11, f12, f13, f14, f15, f16, f17, f18, f19, f20, f21, f22⟩ := hframe
      exact ⟨f1, f2, f3, f4, f5, f6, f7, f8, f9, f10, f11, f12, f13, f14, f15, f16, f17, f18, f19, f20, f21, f22⟩
    have htw : t.w = s.w := hfr.w
    have hth : t.h = s.h := hfr.h
    refine ⟨{ t with img := m }, ?_, hfr, hbr', hbc', hst, hpos, hms, hmw, fun a => ?_⟩
    · rw [he]
      simp only [andThen_next, reduceCtorEq, if_false]
      rw [ht]
      simp only [andThen_next, pixStore, hbr', hbc', htw, hth, himg]
      rw [hm]
    · have hp : ({ t with img := m } : State).plen = s.plen := hfr.plen
      have hpy : ({ t with img := m } : State).pay = s.pay := hfr.pay
      have hfm : ({ t with img := m } : State).fmt = s.fmt := hfr.fmt
      have hww : ({ t with img := m } : State).w = s.w := hfr.w
      have hcf : ({ t with img := m } : State).config = s.config := hfr.config
      rw [hp, hpy, hfm, hww, hcf]
      show m.read a = _
      rw [hmr a, hf.2 a]
      simp only [List.mem_finRange, and_true, hms]
      by_cases ha : a < s.img.size
      · simp only [ha, true_and]
        by_cases hk : blockOf s.w.toNat a = s.blkIdx
        · rw [if_pos ((hcell a ha).mp hk), if_pos (by omega)]
          have hk2 : a / 4 / s.w.toNat / 4 * ((s.w.toNat + 3) / 4) + a / 4 % s.w.toNat / 4 = s.blkIdx := hk
          rw [hs.strided] at hle
          simp only [imagePixel, hk2, if_pos hle]
          rw [hpatch]
          simp only [hs.strided]
          cases hfmt : s.fmt with
          | bc1 => rfl
          | bc3 => rfl
          | other n =>
            have := hs.validated.1
            rw [hfmt] at this
            cases this
        · rw [if_neg fun hx => hk ((hcell a ha).mpr hx)]
          by_cases hk' : blockOf s.w.toNat a < s.blkIdx
          · rw [if_pos hk', if_pos (by omega)]
          · rw [if_neg hk', if_neg (by omega)]
      · simp only [ha, false_and, if_false]
  · have := hs.payload
    unfold State.PayloadPresent at this
    omega

/-- `BLKNEXT` inside the grid: the raster successor, or completion at the last block. -/
theorem blkNext_spec {s : State} (hc : s.bc.toNat < s.bprow.toNat) (hr : s.br.toNat < s.bpcol.toNat) :
    (s.blkIdx + 1 < s.bprow.toNat * s.bpcol.toNat ∧
      ∃ r c, blkNext s = { s with br := r, bc := c } ∧ r.toNat * s.bprow.toNat + c.toNat = s.blkIdx + 1 ∧
        c.toNat < s.bprow.toNat ∧ r.toNat < s.bpcol.toNat) ∨
    (s.blkIdx + 1 = s.bprow.toNat * s.bpcol.toNat ∧ s.br.toNat + 1 = s.bpcol.toNat ∧
      s.bc.toNat + 1 = s.bprow.toNat ∧ blkNext s = completeDecimg s) := by
  have hcl := s.bprow.isLt
  have hrl := s.bpcol.isLt
  have hmul : ∀ r, r * s.bprow.toNat + s.bprow.toNat = (r + 1) * s.bprow.toNat := fun r => by ring
  have hle : ∀ r, r + 1 ≤ s.bpcol.toNat → (r + 1) * s.bprow.toNat ≤ s.bprow.toNat * s.bpcol.toNat := fun r h => by
    rw [Nat.mul_comm s.bprow.toNat]
    exact Nat.mul_le_mul_right _ h
  unfold blkNext State.blkIdx
  by_cases h1 : s.bc.toNat + 1 < s.bprow.toNat
  · left
    have hcn : (s.bc + 1).toNat = s.bc.toNat + 1 := by
      have h1' : (1 : BitVec 15).toNat = 1 := rfl
      rw [BitVec.toNat_add, h1']
      omega
    have := hmul s.br.toNat
    have := hle s.br.toNat (by omega)
    refine ⟨by omega, s.br, s.bc + 1, by rw [if_pos h1], by rw [hcn]; omega, by omega, hr⟩
  · by_cases h2 : s.br.toNat + 1 < s.bpcol.toNat
    · left
      have hrn : (s.br + 1).toNat = s.br.toNat + 1 := by
        have h1' : (1 : BitVec 15).toNat = 1 := rfl
        rw [BitVec.toNat_add, h1']
        omega
      have := hmul s.br.toNat
      have := hle (s.br.toNat + 1) (by omega)
      have := hmul (s.br.toNat + 1)
      refine ⟨by omega, s.br + 1, 0, by rw [if_neg h1, if_pos h2], ?_, ?_, by omega⟩
      · rw [hrn]
        have : (0 : BitVec 15).toNat = 0 := rfl
        omega
      · have : (0 : BitVec 15).toNat = 0 := rfl
        omega
    · right
      have := hmul s.br.toNat
      have hx : s.br.toNat + 1 = s.bpcol.toNat := by omega
      rw [hx] at this
      have := Nat.mul_comm s.bprow.toNat s.bpcol.toNat
      refine ⟨by omega, hx, by omega, by rw [if_neg h1, if_neg h2]⟩

/-- The loop from a block to the end of the grid. -/
theorem blockLoop_spec : ∀ (n : Nat) (s : State), s.InLoop → Filled s.blkIdx s → s.blkIdx + n = s.bprow.toNat * s.bpcol.toNat →
    ∃ t, blockLoop n s = .next t ∧ LoopFrame s t ∧ t.status = .ok ∧ t.pos = .idle ∧
      t.br.toNat + 1 = s.bpcol.toNat ∧ t.bc.toNat + 1 = s.bprow.toNat ∧ t.img.size = s.img.size ∧
      Filled (s.bprow.toNat * s.bpcol.toNat) t
  | 0, s, hs, _, hn => by
    have h1 : (s.br.toNat + 1) * s.bprow.toNat ≤ s.bpcol.toNat * s.bprow.toNat := Nat.mul_le_mul_right _ hs.row
    have h2 : (s.br.toNat + 1) * s.bprow.toNat = s.br.toNat * s.bprow.toNat + s.bprow.toNat := by ring
    have h3 := hs.col
    have h4 := Nat.mul_comm s.bpcol.toNat s.bprow.toNat
    unfold State.blkIdx at hn
    omega
  | n + 1, s, hs, hf, hn => by
    obtain ⟨t, ht, hfr, hbr, hbc, hst, hpos, hsz, hfill⟩ := processBlock_spec hs hf
    have hidx : t.blkIdx = s.blkIdx := by unfold State.blkIdx; rw [hbr, hbc, hfr.bprow]
    have htl : t.bc.toNat < t.bprow.toNat := by rw [hbc, hfr.bprow]; exact hs.col
    have htr : t.br.toNat < t.bpcol.toNat := by rw [hbr, hfr.bpcol]; exact hs.row
    rw [blockLoop_succ, ht, andThen_next]
    rcases blkNext_spec htl htr with ⟨-, r, c, he, hrc, hc, hr⟩ | ⟨hlast, hr, hc, he⟩
    · rw [he]
      have hu : ({ t with br := r, bc := c } : State).InLoop :=
        { validated := by
            have := hs.validated
            unfold State.Validated at this ⊢
            rw [← hfr.fmt, ← hfr.w, ← hfr.h] at this
            exact this
          gridded := by
            have := hs.gridded
            unfold State.Gridded at this ⊢
            rw [← hfr.bprow, ← hfr.bpcol, ← hfr.w, ← hfr.h] at this
            exact this
          strided := by
            have := hs.strided
            rw [← hfr.stride, ← hfr.fmt] at this
            exact this
          sized := by
            have := hs.sized
            rw [← hsz, ← hfr.w, ← hfr.h] at this
            exact this
          payload := by
            have := hs.payload
            unfold State.PayloadPresent at this ⊢
            rw [← hfr.plen, ← hfr.pay] at this
            exact this
          row := hr
          col := hc }
      have huidx : ({ t with br := r, bc := c } : State).blkIdx = s.blkIdx + 1 := by rw [← hidx]; exact hrc
      have hgrid : ({ t with br := r, bc := c } : State).bprow.toNat * ({ t with br := r, bc := c } : State).bpcol.toNat =
          s.bprow.toNat * s.bpcol.toNat := by
        show t.bprow.toNat * t.bpcol.toNat = _
        rw [hfr.bprow, hfr.bpcol]
      obtain ⟨v, hv, hvf, h1, h2, h3, h4, h5, h6⟩ := blockLoop_spec n { t with br := r, bc := c } hu
        (by rw [huidx]; exact hfill) (by rw [huidx, hgrid]; omega)
      refine ⟨v, hv, hfr.trans ?_, h1, h2, ?_, ?_, h5.trans hsz, by rw [hgrid] at h6; exact h6⟩
      · obtain ⟨f1, f2, f3, f4, f5, f6, f7, f8, f9, f10, f11, f12, f13, f14, f15, f16, f17, f18, f19, f20, f21, f22⟩ := hvf
        exact ⟨f1, f2, f3, f4, f5, f6, f7, f8, f9, f10, f11, f12, f13, f14, f15, f16, f17, f18, f19, f20, f21, f22⟩
      · rw [h3]
        show t.bpcol.toNat = _
        rw [hfr.bpcol]
      · rw [h4]
        show t.bprow.toNat = _
        rw [hfr.bprow]
    · rw [he]
      have hn0 : n = 0 := by
        rw [hidx, hfr.bprow, hfr.bpcol] at hlast
        omega
      subst hn0
      refine ⟨completeDecimg t, rfl, hfr.trans ?_, rfl, rfl, ?_, ?_, hsz, ?_⟩
      · constructor <;> first | rfl | (intro; exact ⟨rfl, rfl, rfl, rfl, rfl⟩) | (intro; rfl)
      · rw [← hfr.bpcol]; exact hr
      · rw [← hfr.bprow]; exact hc
      · rw [← hfr.bprow, ← hfr.bpcol, ← hlast, hidx]
        exact hfill

end Sys2Proof.Machine
end

