-- ==== Sys2Proof/Laws/PerInstr.lean ====
section
/-! SUPPORT. Per-instruction families (LAWS.json): each statement is about the instruction as syntax. -/

/-- The encoding of an instruction, where it has one, has the length of its format: 8 bytes for B64, 16 for B128, 12 and
the data bytes for CHK (30_encoding.md R80, R92). -/
def Sys2Proof.Laws.EncodedLength.Statement (i : Sys2Proof.Instr) : Prop :=
  ∀ c, Sys2Proof.encode i = some c →
    match c with
    | .cmd _ => True
    | .b64 bs => bs.length = 8
    | .b128 bs => bs.length = 16
    | .chk bs => ∃ tag data, i = .chunk tag data ∧ bs.length = 12 + data.length

namespace Sys2Proof.Laws.EncodedLength

open Sys2Proof Sys2Proof.Machine

theorem decimgBc1 (w h : Half) (plen : Nat) : Statement (.decimgBc1 w h plen) := by
  intro e h
  cases h
  trivial
theorem decimgBc3 (w h : Half) (plen : Nat) : Statement (.decimgBc3 w h plen) := by
  intro e h
  cases h
  trivial
theorem decimgOther (f : FormatCode) (w h : Half) (plen : Nat) : Statement (.decimgOther f w h plen) := by
  intro e h
  cases h
  trivial
theorem encfile (w h : Half) (blen : Nat) : Statement (.encfile w h blen) := by
  intro e h
  cases h
  trivial
theorem convert (f : FormatCode) (w h : Half) (plen : Nat) : Statement (.convert f w h plen) := fun _ h => nomatch h
theorem validate : Statement .validate := fun _ h => nomatch h
theorem grid : Statement .grid := fun _ h => nomatch h
theorem stride : Statement .stride := fun _ h => nomatch h
theorem imgInit : Statement .imgInit := fun _ h => nomatch h
theorem blkNext : Statement .blkNext := fun _ h => nomatch h
theorem blkFetch : Statement .blkFetch := fun _ h => nomatch h
theorem dispatch : Statement .dispatch := fun _ h => nomatch h
theorem pixStore : Statement .pixStore := fun _ h => nomatch h
theorem bc1DecPal4 (c0 c1 : Half) (idx : Word) : Statement (.bc1DecPal4 c0 c1 idx) := by
  intro e h
  cases h
  exact length_leBytes _ _
theorem bc1DecPal3t (c0 c1 : Half) (idx : Word) : Statement (.bc1DecPal3t c0 c1 idx) := by
  intro e h
  cases h
  exact length_leBytes _ _
theorem bc3DecAramp8 (a0 a1 : Byte) (abits : BitVec 48) (c0 c1 : Half) (idx : Word) : Statement (.bc3DecAramp8 a0 a1 abits c0 c1 idx) := by
  intro e h
  cases h
  exact length_leBytes _ _
theorem bc3DecAramp6 (a0 a1 : Byte) (abits : BitVec 48) (c0 c1 : Half) (idx : Word) : Statement (.bc3DecAramp6 a0 a1 abits c0 c1 idx) := by
  intro e h
  cases h
  exact length_leBytes _ _
theorem unpack565 (c : Half) : Statement (.unpack565 c) := fun _ h => nomatch h
theorem exp5 (v : BitVec 5) : Statement (.exp5 v) := fun _ h => nomatch h
theorem exp6 (v : BitVec 6) : Statement (.exp6 v) := fun _ h => nomatch h
theorem endpt (c : Half) : Statement (.endpt c) := fun _ h => nomatch h
theorem bc1Parse (b : BitVec 64) : Statement (.bc1Parse b) := fun _ h => nomatch h
theorem cmp16 : Statement .cmp16 := fun _ h => nomatch h
theorem palBase : Statement .palBase := fun _ h => nomatch h
theorem pal4 : Statement .pal4 := fun _ h => nomatch h
theorem pal3t : Statement .pal3t := fun _ h => nomatch h
theorem idx2 (p : BitVec 4) : Statement (.idx2 p) := fun _ h => nomatch h
theorem bc3Parse (b : BitVec 128) : Statement (.bc3Parse b) := fun _ h => nomatch h
theorem cmp8 : Statement .cmp8 := fun _ h => nomatch h
theorem aramp8 : Statement .aramp8 := fun _ h => nomatch h
theorem aramp6 : Statement .aramp6 := fun _ h => nomatch h
theorem idx3 (p : BitVec 4) : Statement (.idx3 p) := fun _ h => nomatch h
theorem bc3Color : Statement .bc3Color := fun _ h => nomatch h
theorem be32 (v : Word) : Statement (.be32 v) := fun _ h => nomatch h
theorem crc32Init : Statement .crc32Init := fun _ h => nomatch h
theorem crc32Upd (x : Byte) : Statement (.crc32Upd x) := fun _ h => nomatch h
theorem crc32Fin : Statement .crc32Fin := fun _ h => nomatch h
theorem crc32 (s : List Byte) : Statement (.crc32 s) := fun _ h => nomatch h
theorem chunk (tag : Tag) (data : List Byte) : Statement (.chunk tag data) := by
  intro e h
  cases h
  exact ⟨tag, data, rfl, length_chunkFrame tag data⟩
theorem encValidate : Statement .encValidate := fun _ h => nomatch h
theorem sig : Statement .sig := fun _ h => nomatch h
theorem ihdr : Statement .ihdr := fun _ h => nomatch h
theorem scan : Statement .scan := fun _ h => nomatch h
theorem compress : Statement .compress := fun _ h => nomatch h
theorem idat : Statement .idat := fun _ h => nomatch h
theorem iend : Statement .iend := fun _ h => nomatch h

end Sys2Proof.Laws.EncodedLength
end

