-- ==== Sys2Proof/Laws/StatusCode.lean ====
section
/-! SUPPORT. The numbering of the outcomes, outside the trusted definitions (60_exceptions.md R225; log 19). -/

namespace Sys2Proof.Machine

/-- `ERR_CODE` and the success code, the spec's own numbering (60_exceptions.md R225). -/
def Status.code : Status → Nat
  | .ok => 0
  | .unsupportedFormat => 1
  | .invalidDimensions => 2
  | .bufferSizeMismatch => 3

/-- Different outcomes have different codes (00_scope.md R7). -/
theorem Status.code_injective : Function.Injective Status.code := by
  intro a b h
  cases a <;> cases b <;> first | rfl | cases h

end Sys2Proof.Machine
end

