-- ==== Sys2Proof/Laws/Stored.lean ====
section
/-! SUPPORT. `STORED`, the instance of the open parameter `COMPRESS` that spec/95_test_vectors.md writes its files with
(45_file_encoder.md R204). The machine does not use it: its compressor is uninterpreted (log 9). -/

namespace Sys2Proof.Machine

/-- The two running sums of `ADLER32` (45_file_encoder.md R204). -/
def adlerSums : Nat × Nat → List Byte → Nat × Nat
  | ab, [] => ab
  | (a, b), x :: xs => adlerSums ((a + x.toNat) % 65521, (b + (a + x.toNat) % 65521) % 65521) xs

/-- `ADLER32` (45_file_encoder.md R204). -/
def adler32 (s : List Byte) : Nat := (adlerSums (1, 0) s).2 * 65536 + (adlerSums (1, 0) s).1

/-- `STORED`, defined for fewer than 65536 bytes (45_file_encoder.md R204). -/
def stored (s : List Byte) : List Byte :=
  [0x78, 0x01, 0x01] ++ leBytes 2 s.length ++ leBytes 2 (65535 - s.length) ++ s ++ be32 (BitVec.ofNat 32 (adler32 s))

/-- What inflating a stored block answers. -/
def unstored (z : List Byte) : List Byte := (z.drop 7).take (leNat ((z.drop 3).take 2))

/-- `COMPRESS_lossless` of `STORED` on its domain (45_file_encoder.md R204). -/
theorem unstored_stored (s : List Byte) (h : s.length < 65536) : unstored (stored s) = s := by
  have hl : leNat [BitVec.ofNat 8 s.length, BitVec.ofNat 8 (s.length / 256)] = s.length := by
    simp only [leNat, BitVec.toNat_ofNat]
    omega
  have h7 : (stored s).drop 7 = s ++ be32 (BitVec.ofNat 32 (adler32 s)) := rfl
  have h3 : ((stored s).drop 3).take 2 = [BitVec.ofNat 8 s.length, BitVec.ofNat 8 (s.length / 256)] := rfl
  rw [unstored, h7, h3, hl, List.take_append_of_le_length (Nat.le_refl _), List.take_length]

end Sys2Proof.Machine
end

