-- ==== Sys2Proof/Tests/Slice0.lean ====
section
/-! SUPPORT. Tests: smoke tests of WellFormed, decoding of written-out words, the vectors of spec/95_test_vectors.md (named
in each comment), and a witness for the hypotheses of each statement. -/

namespace Sys2Proof.Tests

open Sys2Proof Sys2Proof.Machine

set_option Elab.async false

/-! ### Helpers -/

/-- The state an operation answers. -/
def nextOf (o : Host.Outcome State Fault Refusal) : Option State :=
  match o with
  | .next s => some s
  | .fault _ => none
  | .refused _ => none

/-- A field of the state an operation answers from the reset state with changes. -/
def after {α : Type} (i : Instr) (s : State) (f : State → α) : Option α := (nextOf (exec i s)).map f

/-- The reset state with a payload. -/
def withPay (bs : List Byte) : State := { State.reset with pay := Memory.ofBytes bs, plen := bs.length }

/-- The reset state with an image. -/
def withImg (w h : Half) (bs : List Byte) : State :=
  { State.reset with w := w, h := h, img := Memory.ofBytes bs, blen := bs.length }

/-- The same machine configured with `RAMP_WEIGHTS = shifted`. -/
def shifted (s : State) : State := { s with config := { s.config with rampWeights := .shifted } }

/-- The same machine configured with `ERR_ORDER = either`. -/
def eitherError (s : State) : State := { s with config := { s.config with errOrder := .either } }

/-- The same machine configured with `CHUNK_MAX = 2^31 - 1`. -/
def conformant (s : State) : State := { s with config := { s.config with chunkMax := .standard } }

/-- Why a decoder refuses. -/
def errorOf (r : Except DecodeError Instr) : Option DecodeError :=
  match r with
  | .ok _ => none
  | .error e => some e

/-- The instruction a decoder answers. -/
def instrOf (r : Except DecodeError Instr) : Option Instr := r.toOption

/-- V2's block. -/
def blkA : List Byte := [0x00, 0xF8, 0x1F, 0x00, 0xE4, 0xE4, 0xE4, 0xE4]

/-- Solid green. -/
def blkB : List Byte := [0xE0, 0x07, 0xE0, 0x07, 0, 0, 0, 0]

/-- Solid white. -/
def blkC : List Byte := [0xFF, 0xFF, 0, 0, 0, 0, 0, 0]

/-- W1's block. -/
def blkY : List Byte := [0xFF, 0x00, 0x88, 0xC6, 0xFA, 0x77, 0x39, 0x05] ++ blkA

/-! ### WellFormed refuses an ill-formed term for each of its checks -/

theorem test_wf_other_bc1 : (Instr.decimgOther .bc1 1 1 0).WellFormed = false := by decide
theorem test_wf_other_bc3 : (Instr.decimgOther .bc3 1 1 0).WellFormed = false := by decide
theorem test_wf_pal4_equal : (Instr.bc1DecPal4 7 7 0).WellFormed = false := by decide
theorem test_wf_pal3t_greater : (Instr.bc1DecPal3t 8 7 0).WellFormed = false := by decide
theorem test_wf_aramp8_equal : (Instr.bc3DecAramp8 9 9 0 0 0 0).WellFormed = false := by decide
theorem test_wf_aramp6_greater : (Instr.bc3DecAramp6 10 9 0 0 0 0).WellFormed = false := by decide
theorem test_wf_chunk_long (data : List Byte) (h : data.length = 2 ^ 32) :
    (Instr.chunk Tag.idat data).WellFormed = false :=
  decide_eq_false (by rw [h]; decide)

/-! ### Decoding -/

/-- R83, R88: V2. -/
theorem test_decode_pal4 : instrOf (decodeB64 blkA) = some (.bc1DecPal4 0xF800 0x001F 0xE4E4E4E4) := by decide +kernel
/-- R83, R88: V6, equal endpoints. -/
theorem test_decode_pal3t : instrOf (decodeB64 [0x34, 0x12, 0x34, 0x12, 0xFF, 0xFF, 0xFF, 0xFF]) =
    some (.bc1DecPal3t 0x1234 0x1234 0xFFFFFFFF) := by decide +kernel
/-- R86, R88: W4. -/
theorem test_decode_aramp8 : instrOf (decodeB128
    [0xC8, 0x64, 0x07, 0x00, 0x00, 0x00, 0x00, 0x40, 0xFF, 0xFF, 0x00, 0x00, 0x02, 0x00, 0x00, 0x40]) =
    some (.bc3DecAramp8 200 100 0x400000000007 0xFFFF 0x0000 0x40000002) := by decide +kernel
/-- R86, R88: W3, equal alpha endpoints. -/
theorem test_decode_aramp6 : instrOf (decodeB128
    [0x80, 0x80, 0x88, 0xC6, 0xFA, 0x88, 0xC6, 0xFA, 0x34, 0x12, 0x34, 0x12, 0x1B, 0x1B, 0x1B, 0x1B]) =
    some (.bc3DecAramp6 128 128 0xFAC688FAC688 0x1234 0x1234 0x1B1B1B1B) := by decide +kernel
/-- R91: a block of another length. -/
theorem test_decode_length : errorOf (decodeBlock .bc3 blkA) = some .blockLength := by decide
/-- R82: no block under an unrecognised format. -/
theorem test_decode_format : errorOf (decodeBlock (.other 3) blkA) = some .formatNotRecognised := by decide
/-- R81, R82: the four commands, ignored fields ignored. -/
theorem test_decode_commands :
    decodeCommand ⟨.decimg, .bc1, 5, 6, 20, 9⟩ = .decimgBc1 5 6 20 ∧
    decodeCommand ⟨.decimg, .bc3, 5, 6, 20, 9⟩ = .decimgBc3 5 6 20 ∧
    decodeCommand ⟨.decimg, .other 4, 5, 6, 20, 9⟩ = .decimgOther (.other 4) 5 6 20 ∧
    decodeCommand ⟨.encfile, .bc1, 5, 6, 20, 9⟩ = .encfile 5 6 9 := by decide
/-- R92: K13. -/
theorem test_decode_chunk_empty :
    instrOf (decodeChk [0, 0, 0, 0, 0x49, 0x45, 0x4E, 0x44, 0xAE, 0x42, 0x60, 0x82]) = some (.chunk Tag.iend []) := by
  decide +kernel
/-- R92: K15. -/
theorem test_decode_chunk :
    instrOf (decodeChk [0, 0, 0, 3, 0x74, 0x45, 0x53, 0x54, 1, 2, 3, 0x4B, 0xFF, 0xC4, 0x78]) =
      some (.chunk ⟨0x74, 0x45, 0x53, 0x54⟩ [1, 2, 3]) := by decide +kernel
/-- R92: a wrong checksum, a wrong length, a short frame. -/
theorem test_decode_chunk_bad :
    errorOf (decodeChk [0, 0, 0, 0, 0x49, 0x45, 0x4E, 0x44, 0xAE, 0x42, 0x60, 0x83]) = some .frameChecksum ∧
    errorOf (decodeChk [0, 0, 0, 1, 0x49, 0x45, 0x4E, 0x44, 0xAE, 0x42, 0x60, 0x82]) = some .frameLength ∧
    errorOf (decodeChk [0, 0, 0, 0, 0x49, 0x45, 0x4E, 0x44, 0xAE, 0x42, 0x60]) = some .frameShort := by decide +kernel
/-- F1: the file of a 1 by 1 image, taken apart. -/
theorem test_decode_file : decodeFile (
    [0x89, 0x50, 0x4E, 0x47, 0x0D, 0x0A, 0x1A, 0x0A] ++
    [0x00, 0x00, 0x00, 0x0D, 0x49, 0x48, 0x44, 0x52, 0x00, 0x00, 0x00, 0x01, 0x00, 0x00, 0x00, 0x01, 0x08, 0x06, 0x00,
      0x00, 0x00, 0x1F, 0x15, 0xC4, 0x89] ++
    [0x00, 0x00, 0x00, 0x10, 0x49, 0x44, 0x41, 0x54, 0x78, 0x01, 0x01, 0x05, 0x00, 0xFA, 0xFF, 0x00, 0xFF, 0x00, 0x00,
      0xFF, 0x05, 0x00, 0x01, 0xFF, 0xFA, 0x5C, 0x88, 0xD1] ++
    [0x00, 0x00, 0x00, 0x00, 0x49, 0x45, 0x4E, 0x44, 0xAE, 0x42, 0x60, 0x82]) =
    some ⟨1, 1, [0x78, 0x01, 0x01, 0x05, 0x00, 0xFA, 0xFF, 0x00, 0xFF, 0x00, 0x00, 0xFF, 0x05, 0x00, 0x01, 0xFF]⟩ := by
  decide +kernel
/-- The table word of V2's block, bit 0 the least significant bit of the first byte. -/
theorem test_table_word_64 :
    decodeTableWord 64 0xE4E4E4E4001FF800 = some (.bc1DecPal4 0xF800 0x001F 0xE4E4E4E4) := by decide +kernel
/-- The table word of W1's block. -/
theorem test_table_word_128 : decodeTableWord 128 0xE4E4E4E4001FF800053977FAC68800FF =
    some (.bc3DecAramp8 255 0 0x053977FAC688 0xF800 0x001F 0xE4E4E4E4) := by decide +kernel
/-- The step runs a table word first after reset. -/
theorem test_step_table_word : (nextOf (step (State.reset.withFetchWord 64 0xE4E4E4E4001FF800))).map
    (fun t => (t.patch.get 1, t.pos)) = some (⟨0, 0, 255, 255⟩, .op .pixStore) := by decide +kernel

/-! ### Colour endpoints -/

/-- E7. -/
theorem test_unpack565 : after (.unpack565 0x1234) State.reset State.res = some (.fields 2 17 20) := by decide +kernel
/-- R115: 16 and the top. -/
theorem test_exp5 : after (.exp5 16) State.reset State.res = some (.channel 131) ∧
    after (.exp5 31) State.reset State.res = some (.channel 255) := by decide +kernel
/-- R115: 32, not bit replication. -/
theorem test_exp6 : after (.exp6 32) State.reset State.res = some (.channel 129) ∧
    after (.exp6 63) State.reset State.res = some (.channel 255) := by decide +kernel
/-- E6. -/
theorem test_endpt : after (.endpt 0x8410) State.reset State.res = some (.color ⟨131, 129, 131⟩) := by decide +kernel

/-! ### BC1 -/

/-- R120: block `X`. -/
theorem test_bc1Parse : after (.bc1Parse (le64 blkA)) State.reset (fun t => (t.c0, t.c1, t.idx)) =
    some (0xF800, 0x001F, 0xE4E4E4E4) := by decide +kernel
/-- R121: unsigned, and V8's raw comparison. -/
theorem test_cmp16 : after .cmp16 { State.reset with c0 := 0x8000, c1 := 0x7FFF } State.mode4 = some true ∧
    after .cmp16 { State.reset with c0 := 0x001F, c1 := 0x0020 } State.mode4 = some false := by decide +kernel
/-- V5. -/
theorem test_palBase : after .palBase { State.reset with c0 := 0x1235, c1 := 0x1234 } (fun t => (t.pal.get 0, t.e1)) =
    some (⟨16, 68, 172, 255⟩, ⟨16, 68, 164⟩) := by decide +kernel
/-- V5. -/
theorem test_pal4 : after .pal4 { State.reset with e0 := ⟨16, 68, 172⟩, e1 := ⟨16, 68, 164⟩ }
    (fun t => (t.pal.get 2, t.pal.get 3)) = some (⟨16, 68, 169, 255⟩, ⟨16, 68, 166, 255⟩) := by decide +kernel
/-- V3. -/
theorem test_pal3t : after .pal3t { State.reset with e0 := ⟨0, 0, 255⟩, e1 := ⟨255, 0, 0⟩ }
    (fun t => (t.pal.get 2, t.pal.get 3)) = some (⟨127, 0, 127, 255⟩, ⟨0, 0, 0, 0⟩) := by decide +kernel
/-- R125. -/
theorem test_idx2 : after (.idx2 0) { State.reset with idx := 0xC0000001 } State.res = some (.selector2 1) ∧
    after (.idx2 15) { State.reset with idx := 0xC0000001 } State.res = some (.selector2 3) := by decide +kernel
/-- V4: row 0 and pixel 12. -/
theorem test_bc1_dec_pal4 : after (.bc1DecPal4 0xFFFF 0x0000 0xAAFF001B) State.reset
    (fun t => (t.patch.get 0, t.patch.get 1, t.patch.get 12)) =
    some (⟨85, 85, 85, 255⟩, ⟨170, 170, 170, 255⟩, ⟨170, 170, 170, 255⟩) := by decide +kernel
/-- V6: transparent. -/
theorem test_bc1_dec_pal3t : after (.bc1DecPal3t 0x1234 0x1234 0xFFFFFFFF) State.reset
    (fun t => (t.patch.get 0, t.patch.get 15)) = some (⟨0, 0, 0, 0⟩, ⟨0, 0, 0, 0⟩) := by decide +kernel

/-! ### BC3 -/

/-- R140: block `Y`. -/
theorem test_bc3Parse : after (.bc3Parse (le128 blkY)) State.reset (fun t => (t.a0, t.a1, t.abits, t.c0, t.c1, t.idx)) =
    some (255, 0, 0x053977FAC688, 0xF800, 0x001F, 0xE4E4E4E4) := by decide +kernel
/-- R141: equal is not greater. -/
theorem test_cmp8 : after .cmp8 { State.reset with a0 := 255, a1 := 0 } State.amode8 = some true ∧
    after .cmp8 { State.reset with a0 := 128, a1 := 128 } State.amode8 = some false := by decide +kernel
/-- A3. -/
theorem test_aramp8 : after .aramp8 { State.reset with a0 := 200, a1 := 100 } State.ramp =
    some #v[200, 100, 171, 157, 142, 128, 114, 100] := by decide +kernel
/-- A10. -/
theorem test_aramp6 : after .aramp6 { State.reset with a0 := 10, a1 := 200 } State.ramp =
    some #v[10, 200, 86, 124, 162, 200, 0, 255] := by decide +kernel
/-- A3, A10 under `shifted`. -/
theorem test_ramps_shifted :
    after .aramp8 (shifted { State.reset with a0 := 200, a1 := 100 }) State.ramp =
      some #v[200, 100, 185, 171, 157, 142, 128, 114] ∧
    after .aramp6 (shifted { State.reset with a0 := 10, a1 := 200 }) State.ramp =
      some #v[10, 200, 48, 86, 124, 162, 0, 255] := by decide +kernel
/-- R144: selectors that straddle bytes. -/
theorem test_idx3 : after (.idx3 5) { State.reset with abits := 0x053977FAC688 } State.res = some (.selector3 5) ∧
    after (.idx3 15) { State.reset with abits := 0x400000000007 } State.res = some (.selector3 2) := by decide +kernel
/-- R145: `C0 <= C1` is still four-colour. -/
theorem test_bc3Color : after .bc3Color { State.reset with c0 := 0x001F, c1 := 0xF800 }
    (fun t => (t.pal.get 2, t.pal.get 3, t.mode4)) = some (⟨85, 0, 170, 255⟩, ⟨170, 0, 85, 255⟩, false) := by
  decide +kernel
/-- W1: pixels 6 and 15. -/
theorem test_bc3_dec_aramp8 : after (.bc3DecAramp8 255 0 0x053977FAC688 0xF800 0x001F 0xE4E4E4E4) State.reset
    (fun t => (t.patch.get 6, t.patch.get 15)) = some (⟨170, 0, 85, 36⟩, ⟨85, 0, 170, 255⟩) := by decide +kernel
/-- W1 under `shifted`: pixels 2 and 4. -/
theorem test_bc3_dec_shifted : after (.bc3DecAramp8 255 0 0x053977FAC688 0xF800 0x001F 0xE4E4E4E4) (shifted State.reset)
    (fun t => (t.patch.get 2, t.patch.get 4)) = some (⟨170, 0, 85, 218⟩, ⟨255, 0, 0, 145⟩) := by decide +kernel
/-- W2: pixels 2 and 6. -/
theorem test_bc3_dec_aramp6 : after (.bc3DecAramp6 10 200 0xFAC688FAC688 0x001F 0xF800 0xE4E4E4E4) State.reset
    (fun t => (t.patch.get 2, t.patch.get 6)) = some (⟨85, 0, 170, 86⟩, ⟨85, 0, 170, 0⟩) := by decide +kernel

/-! ### The assembler -/

/-- I10. -/
theorem test_validate : after .validate { State.reset with fmt := .other 1, w := 4, h := 4 } State.status =
      some .unsupportedFormat ∧
    after .validate { State.reset with fmt := .bc3, w := 4, h := 0 } State.status = some .invalidDimensions := by
  decide +kernel
/-- R161: 5 and 65535. -/
theorem test_grid : after .grid { State.reset with w := 5, h := 65535 } (fun t => (t.bprow, t.bpcol)) =
    some (2, 16384) := by decide +kernel
/-- R162. -/
theorem test_stride : after .stride { State.reset with fmt := .bc1 } State.stride = some 8 ∧
    after .stride { State.reset with fmt := .bc3 } State.stride = some 16 := by decide +kernel
/-- R163. -/
theorem test_imgInit : after .imgInit (withImg 2 1 [1, 2, 3]) (fun t => t.img.bytes) = some [0, 0, 0, 0, 0, 0, 0, 0] := by
  decide +kernel
/-- R164: a 2 by 2 grid, from (0, 1) and from (1, 1). -/
theorem test_blkNext :
    after .blkNext { State.reset with bprow := 2, bpcol := 2, bc := 1, pos := .op .blkNext }
      (fun t => (t.br, t.bc, t.pos)) = some (1, 0, .op .blkNext) ∧
    after .blkNext { State.reset with bprow := 2, bpcol := 2, br := 1, bc := 1, pos := .op .blkNext }
      (fun t => (t.br, t.bc, t.pos)) = some (1, 1, .idle) := by decide +kernel
/-- R165: `PLEN = 8` fetches block 0 and skips block 1. -/
theorem test_blkFetch :
    after .blkFetch { withPay blkA with stride := 8, bprow := 2 } State.blk = some (some blkA) ∧
    after .blkFetch { withPay blkA with stride := 8, bprow := 2, bc := 1 } State.blk = some none := by decide +kernel
/-- P5: the same bytes under both formats. -/
theorem test_dispatch :
    after .dispatch { State.reset with fmt := .bc1, blk := some [0xC8, 0x64, 0x07, 0, 0, 0, 0, 0x40] }
      (fun t => (t.patch.get 14, t.patch.get 15)) = some (⟨0x62, 0x99, 0x41, 255⟩, ⟨0, 0, 0x39, 255⟩) ∧
    after .dispatch { State.reset with fmt := .bc3, blk := some blkY } (fun t => t.patch.get 2) =
      some ⟨170, 0, 85, 182⟩ := by decide +kernel
/-- R167: block (1, 1) of a 5 by 5 image stores one pixel, at offset 96. -/
theorem test_pixStore : after .pixStore { State.reset with
    w := 5, h := 5, br := 1, bc := 1, img := Memory.zeros 100
    patch := Vector.ofFn fun p => ⟨BitVec.ofNat 8 p.val, 17, 18, 19⟩ } (fun t => t.img.cells) =
    some [(97, 17), (98, 18), (99, 19)] := by decide +kernel
/-- I3: a 5 by 5 image of a truncated payload: the ends of rows 3 and 4. -/
theorem test_decimg_bc1 : after (.decimgBc1 5 5 20) (withPay (blkA ++ blkB ++ blkC.take 4))
    (fun t => (t.status, t.img.size, (t.img.bytes.drop 72).take 12)) =
    some (.ok, 100, [0x55, 0, 0xAA, 255, 0, 255, 0, 255, 0, 0, 0, 0]) := by decide +kernel
/-- I8. -/
theorem test_decimg_bc3 : after (.decimgBc3 3 2 16) (withPay blkY) (fun t => t.img.bytes) =
    some [0xFF, 0, 0, 0xFF, 0, 0, 0xFF, 0, 0xAA, 0, 0x55, 0xB6, 0xFF, 0, 0, 0x6D, 0, 0, 0xFF, 0x48, 0xAA, 0, 0x55, 0x24] := by
  decide +kernel
/-- I10: both faults, under `format_first` and under `either`. -/
theorem test_decimg_both_faults :
    after (.decimgOther (.other 1) 0 0 0) State.reset State.status = some .unsupportedFormat ∧
    (after (.decimgOther (.other 1) 0 0 0) (eitherError State.reset) State.status = some .unsupportedFormat ∨
      after (.decimgOther (.other 1) 0 0 0) (eitherError State.reset) State.status = some .invalidDimensions) := by
  have h : after (.decimgOther (.other 1) 0 0 0) (eitherError State.reset) State.status =
      some (if Config.reportsFormat (.other 1) 0 0 then .unsupportedFormat else .invalidDimensions) := rfl
  rw [h]
  refine ⟨rfl, ?_⟩
  split <;> simp
/-- P4: nothing but `STATUS` is written. -/
theorem test_decimg_other : after (.decimgOther (.other 1) 1 1 8) (withImg 1 1 [0x11, 0x22, 0x33, 0x44])
    (fun t => (t.status, t.img.bytes)) = some (.unsupportedFormat, [0x11, 0x22, 0x33, 0x44]) := by decide +kernel

/-! ### Checksum and chunk -/

/-- K2. -/
theorem test_be32 : after (.be32 0x12345678) State.reset State.res = some (.bytes [0x12, 0x34, 0x56, 0x78]) := by
  decide +kernel
/-- K11. -/
theorem test_crc32_init : after .crc32Init State.reset State.crc = some 0xFFFFFFFF := by decide +kernel
/-- K11. -/
theorem test_crc32_upd : after (.crc32Upd 0x49) { State.reset with crc := 0xFFFFFFFF } State.crc = some 0x22FDE946 := by
  decide +kernel
/-- K11. -/
theorem test_crc32_fin : after .crc32Fin { State.reset with crc := 0x22FDE946 } State.res = some (.word 0xDD0216B9) := by
  decide +kernel
/-- K4, K7. -/
theorem test_crc32 : after (.crc32 []) State.reset State.res = some (.word 0) ∧
    after (.crc32 [0x31, 0x32, 0x33, 0x34, 0x35, 0x36, 0x37, 0x38, 0x39]) State.reset State.res =
      some (.word 0xCBF43926) := by decide +kernel
/-- K15, after a byte that stays. -/
theorem test_chunk : after (.chunk ⟨0x74, 0x45, 0x53, 0x54⟩ [1, 2, 3]) { State.reset with out := Memory.ofBytes [7] }
    (fun t => (t.out.bytes, t.dlen)) =
    some ([7, 0, 0, 0, 3, 0x74, 0x45, 0x53, 0x54, 1, 2, 3, 0x4B, 0xFF, 0xC4, 0x78], 3) := by decide +kernel

/-! ### The encoder -/

/-- F6. -/
theorem test_encValidate : after .encValidate { State.reset with w := 1, h := 1, blen := 5 } State.status =
      some .bufferSizeMismatch ∧
    after .encValidate { State.reset with w := 2, h := 2, blen := 16, status := .invalidDimensions } State.status =
      some .invalidDimensions := by decide +kernel
/-- R201. -/
theorem test_sig : after .sig State.reset (fun t => t.out.bytes) =
    some [0x89, 0x50, 0x4E, 0x47, 0x0D, 0x0A, 0x1A, 0x0A] := by decide +kernel
/-- R202: 65535 by 1. -/
theorem test_ihdr : after .ihdr { State.reset with w := 65535, h := 1 } (fun t => t.out.bytes) =
    some [0, 0, 0, 0x0D, 0x49, 0x48, 0x44, 0x52, 0, 0, 0xFF, 0xFF, 0, 0, 0, 1, 8, 6, 0, 0, 0, 0x0B, 0xAB, 0xEB, 0x09] := by
  decide +kernel
/-- R203: the 2 by 2 image. -/
theorem test_scan : after .scan
    (withImg 2 2 [0xFF, 0, 0, 0xFF, 0, 0, 0xFF, 0xFF, 0xFF, 0, 0, 0xFF, 0, 0, 0xFF, 0xFF]) (fun t => t.scan.bytes) =
    some [0, 0xFF, 0, 0, 0xFF, 0, 0, 0xFF, 0xFF, 0, 0xFF, 0, 0, 0xFF, 0, 0, 0xFF, 0xFF] := by decide +kernel
/-- R204: `Z` is what the collaborator answers. -/
theorem test_compress : after .compress State.reset (fun t => t.z.bytes) = some (Config.compress []) := by
  exact congrArg some (Memory.bytes_ofBytes _)
/-- F1's pixel-data chunk. -/
theorem test_idat :
    after .idat { State.reset with z := Memory.ofBytes ([0x78, 0x01, 0x01, 0x05, 0x00, 0xFA, 0xFF] ++
      [0x00, 0xFF, 0x00, 0x00, 0xFF, 0x05, 0x00, 0x01, 0xFF]) } (fun t => t.out.bytes) =
    some [0x00, 0x00, 0x00, 0x10, 0x49, 0x44, 0x41, 0x54, 0x78, 0x01, 0x01, 0x05, 0x00, 0xFA, 0xFF, 0x00, 0xFF, 0x00, 0x00,
      0xFF, 0x05, 0x00, 0x01, 0xFF, 0xFA, 0x5C, 0x88, 0xD1] := by decide +kernel
/-- K13. -/
theorem test_iend : after .iend State.reset (fun t => t.out.bytes) =
    some [0, 0, 0, 0, 0x49, 0x45, 0x4E, 0x44, 0xAE, 0x42, 0x60, 0x82] := by decide +kernel
/-- R204's example, and F1's file with `COMPRESS = STORED`. -/
theorem test_file_stored : stored [0, 0xFF, 0, 0, 0xFF] =
      [0x78, 0x01, 0x01, 0x05, 0x00, 0xFA, 0xFF, 0x00, 0xFF, 0x00, 0x00, 0xFF, 0x05, 0x00, 0x01, 0xFF] ∧
    fileBytes 1 1 (stored (scanlines 4 1 [0xFF, 0, 0, 0xFF])) =
    [0x89, 0x50, 0x4E, 0x47, 0x0D, 0x0A, 0x1A, 0x0A] ++
    [0x00, 0x00, 0x00, 0x0D, 0x49, 0x48, 0x44, 0x52, 0x00, 0x00, 0x00, 0x01, 0x00, 0x00, 0x00, 0x01, 0x08, 0x06, 0x00,
      0x00, 0x00, 0x1F, 0x15, 0xC4, 0x89] ++
    [0x00, 0x00, 0x00, 0x10, 0x49, 0x44, 0x41, 0x54, 0x78, 0x01, 0x01, 0x05, 0x00, 0xFA, 0xFF, 0x00, 0xFF, 0x00, 0x00,
      0xFF, 0x05, 0x00, 0x01, 0xFF, 0xFA, 0x5C, 0x88, 0xD1] ++
    [0x00, 0x00, 0x00, 0x00, 0x49, 0x45, 0x4E, 0x44, 0xAE, 0x42, 0x60, 0x82] := by decide +kernel
/-- F6: `OUT` is empty. -/
theorem test_encfile_mismatch : after (.encfile 2 2 15) { State.reset with out := Memory.ofBytes [1] }
    (fun t => (t.status, t.out.bytes, t.pos)) = some (.bufferSizeMismatch, [], .idle) := by decide +kernel
/-- R97: a conversion whose `DECIMG` fails leaves no file. -/
theorem test_convert_error : after (.convert .bc1 0 4 0) { State.reset with out := Memory.ofBytes [1] }
    (fun t => (t.status, t.out.bytes)) = some (.invalidDimensions, []) := by decide +kernel
/-- R257: the host has no start while a command runs, and one in the idle condition. -/
theorem test_host_start : hostStart .decimg { State.reset with pos := .op .grid } = none ∧
    hostStart .encfile State.reset = some { State.reset with op := .encfile, pos := .command } := by decide +kernel
/-- R259, R268: while a command runs the host reads nothing; between commands `STATUS`, `IMG`, `OUT`. -/
theorem test_host_read :
    hostReadStatus { State.reset with pos := .op .grid } = none ∧
    hostReadImg { withImg 1 1 [1, 2, 3, 4] with pos := .op .pixStore } = none ∧
    hostReadOut { State.reset with out := Memory.ofBytes [9], pos := .op .iend } = none ∧
    hostImageResult (withImg 1 1 [1, 2, 3, 4]) = some [1, 2, 3, 4] ∧
    hostFileResult { State.reset with out := Memory.ofBytes [9] } = some [9] := by decide +kernel
/-- P4: after an error the host reads the outcome, the `IMG` it had and an earlier `OUT`; none of them is a result. -/
theorem test_host_read_after_error :
    after (.decimgOther (.other 1) 1 1 8) { withImg 1 1 [0x11, 0x22, 0x33, 0x44] with out := Memory.ofBytes [9] }
      (fun t => (hostReadStatus t, [hostReadImg t, hostReadOut t, hostImageResult t, hostFileResult t])) =
    some (some .unsupportedFormat, [some [0x11, 0x22, 0x33, 0x44], some [9], none, none]) := by decide +kernel
/-- P1's host moves and its `DECIMG`, run one operation a step (I5's payload, 1 by 1). -/
theorem test_stepwise_decimg :
    ((hostPayload blkA State.reset).bind fun a => (hostFormat .bc1 1 1 a).bind fun b =>
      (hostStartStepwise .decimg b).bind fun c => nextOf (Host.Core.run Sys2Proof.core 8 c)).map
      (fun t => (t.pos, t.status, t.img.bytes)) = some (.idle, .ok, [0xFF, 0, 0, 0xFF]) := by decide +kernel

/-! ### Witnesses: for each statement with hypotheses, a state and operands that meet them all -/

theorem test_witness_DecodeUndoesEncode :
    (Instr.chunk Tag.iend []).WellFormed = true ∧
      encode (.chunk Tag.iend []) = some (.chk (chunkFrame Tag.iend [])) ∧
    (Instr.bc1DecPal3t 0 0 0).WellFormed = true ∧ encode (.bc1DecPal3t 0 0 0) = some (.b64 [0, 0, 0, 0, 0, 0, 0, 0]) := by
  decide +kernel

theorem test_witness_EveryBlockPatternIsLegal : blkA.length = 8 ∧ blkY.length = 16 := by decide

theorem test_witness_StepRunsTheDecodedInstruction :
    (∃ s bs i t, s.pos = .block ∧ s.blk = some bs ∧ decodeBlock s.fmt bs = .ok i ∧ exec i s = .next t) ∧
    (∃ s t, s.pos = .command ∧ exec (decodeCommand s.record) s = .next t) ∧
    (∃ s i t, s.pos = .op i ∧ exec i s = .next t) ∧ State.reset.pos = .idle :=
  ⟨⟨placeBlock .bc1 blkA State.reset, blkA, decodeWord64 (le64 blkA), _, rfl, rfl, rfl, rfl⟩,
    ⟨{ State.reset with pos := .command, fmt := .bc1 }, _, rfl, rfl⟩,
    ⟨{ State.reset with pos := .op .grid }, .grid, _, rfl, rfl⟩, rfl⟩

theorem test_witness_EndpointOrderIsTheRawOrder : ∃ (c c' : Half) (s t t' : State) (x x' : Rgb),
    exec (.endpt c) s = .next t ∧ exec (.endpt c') s = .next t' ∧ t.res = .color x ∧ t'.res = .color x' ∧
      c.toNat < c'.toNat :=
  ⟨0x001F, 0x0020, State.reset, _, _, endpoint 0x001F, endpoint 0x0020, rfl, rfl, rfl, rfl, by decide⟩

/-- Four-colour mode at its boundary and three-colour mode at its boundary. -/
theorem test_witness_Bc1Modes : (0 : Half).toNat < (1 : Half).toNat ∧ (0 : Half).toNat ≤ (0 : Half).toNat := by decide

theorem test_witness_Ramps : (2 : Nat) ≤ (2 : Fin 8).val ∧ (2 : Fin 8).val ≤ 5 ∧ 2 ≤ (7 : Fin 8).val ∧
    2 ≤ (5 : Fin 8).val ∧ (5 : Fin 8).val ≤ 5 ∧ State.reset.config.rampWeights = .asWritten ∧
    (shifted State.reset).config.rampWeights = .shifted := by decide

theorem test_witness_InterpolantsLieBetweenTheirEndpoints : ∃ (s t u : State) (f : Pixel → Byte) (g : Rgb → Byte),
    (f, g) ∈ [(Pixel.r, Rgb.r), (Pixel.g, Rgb.g), (Pixel.b, Rgb.b)] ∧
    exec .pal4 s = .next t ∧ exec .pal3t s = .next u :=
  ⟨State.reset, _, _, Pixel.r, Rgb.r, by simp, rfl, rfl⟩

theorem test_witness_BlockDecodersDependOnlyOnTheirBytes :
    decodeBlock .bc1 blkA = .ok (decodeWord64 (le64 blkA)) ∧ decodeBlock .bc3 blkY = .ok (decodeWord128 (le128 blkY)) ∧
    (shifted State.reset).config.rampWeights = (shifted (withPay blkA)).config.rampWeights :=
  ⟨rfl, rfl, rfl⟩

/-- The four clauses of `VALIDATE`, each at the smallest or the largest dimension. -/
theorem test_witness_ValidateRaisesOrGoesOn :
    (FormatCode.bc1.unrecognised = false ∧ (1 : Half) ≠ 0 ∧ (65535 : Half) ≠ 0) ∧
    (FormatCode.other 0).unrecognised = true ∧ ((0 : Half) = 0 ∨ (1 : Half) = 0) := by decide

/-- A machine of each `ERR_ORDER`. -/
theorem test_witness_InvalidImageOperandsAreReported : State.reset.config.errOrder = .formatFirst ∧
    (eitherError State.reset).config.errOrder = .either ∧ ((0 : Half) = 0 ∨ (65535 : Half) = 0) := by decide

theorem test_witness_StrideAndImageAreSetUp : ({ State.reset with fmt := .bc1 } : State).fmt = .bc1 ∧
    ({ State.reset with fmt := .bc3 } : State).fmt = .bc3 ∧ State.reset.fmt = .other 0 := by decide

/-- `BLKNEXT` inside a row, at the end of a row and at the last block. -/
theorem test_witness_BlockNextIsRasterOrder : ∃ a b c : State,
    (a.bc.toNat < a.bprow.toNat ∧ a.br.toNat < a.bpcol.toNat ∧ a.blkIdx + 1 < a.bprow.toNat * a.bpcol.toNat) ∧
    (b.bc.toNat < b.bprow.toNat ∧ b.br.toNat < b.bpcol.toNat ∧ b.blkIdx + 1 < b.bprow.toNat * b.bpcol.toNat) ∧
    (c.bc.toNat < c.bprow.toNat ∧ c.br.toNat < c.bpcol.toNat ∧ ¬ c.blkIdx + 1 < c.bprow.toNat * c.bpcol.toNat) :=
  ⟨{ State.reset with bprow := 2, bpcol := 2 }, { State.reset with bprow := 2, bpcol := 2, bc := 1 },
    { State.reset with bprow := 2, bpcol := 2, br := 1, bc := 1 }, by decide, by decide, by decide⟩

theorem test_witness_BlockFetchSkipsOrTakesTheBytes :
    (withPay blkA).PayloadPresent ∧
    ∃ s s' t : State, s'.stride = s.stride ∧ s'.plen = s.plen ∧ s.blkIdx ≤ s'.blkIdx ∧ exec .blkFetch s = .next t ∧
      t.blk = none :=
  ⟨Nat.le_refl 8, { State.reset with stride := 8 }, { State.reset with stride := 8, bc := 1 },
    { State.reset with stride := 8 }, rfl, rfl, by decide, rfl, rfl⟩

theorem test_witness_DispatchRunsTheDecodedBlock :
    (∃ (s : State) (bs : List Byte), s.blk = some bs ∧ bs.length = strideOf s.fmt ∧ s.fmt.unrecognised = false) ∧
    State.reset.blk = none :=
  ⟨⟨placeBlock .bc3 blkY State.reset, blkY, rfl, rfl, rfl⟩, rfl⟩

theorem test_witness_PixelStoreWritesItsSquare :
    ∃ s : State, s.img.wf = true ∧ s.img.size = s.w.toNat * s.h.toNat * 4 ∧ s.w ≠ 0 ∧ s.h ≠ 0 :=
  ⟨{ State.reset with w := 1, h := 1, img := Memory.zeros 4 }, rfl, rfl, by decide, by decide⟩

theorem test_witness_BlockStoresCommute :
    ∃ (s t1 t2 u1 u2 : State) (q : Vector Pixel 16) (r c : BitVec 15),
      s.img.wf = true ∧ s.img.size = s.w.toNat * s.h.toNat * 4 ∧ (r, c) ≠ (s.br, s.bc) ∧
      exec .pixStore s = .next t1 ∧ exec .pixStore { t1 with patch := q, br := r, bc := c } = .next t2 ∧
      exec .pixStore { s with patch := q, br := r, bc := c } = .next u1 ∧
      exec .pixStore { u1 with patch := s.patch, br := s.br, bc := s.bc } = .next u2 :=
  ⟨{ State.reset with w := 5, h := 1, img := Memory.zeros 20 }, _, _, _, _,
    Vector.replicate 16 ⟨1, 2, 3, 4⟩, 0, 1, rfl, rfl, by decide, rfl, rfl, rfl, rfl⟩

/-- A `DECIMG` at the smallest dimensions, its payload present; the same operands after other commands. -/
theorem test_witness_DecodeImage : (1 : Half) ≠ 0 ∧ 8 ≤ (withPay blkA).pay.size ∧
    (FormatCode.bc1, Instr.decimgBc1 1 1 8) ∈
      [(FormatCode.bc1, Instr.decimgBc1 1 1 8), (FormatCode.bc3, Instr.decimgBc3 1 1 8)] := by decide +kernel

/-- Two payloads that agree on the one block and differ beyond it. -/
theorem test_witness_ImageDependsOnlyOnItsBlocks :
    8 ≤ (withPay blkA).pay.size ∧ 9 ≤ (withPay (blkA ++ [1])).pay.size ∧
    min 8 ((((1 : Half).toNat + 3) / 4) * (((1 : Half).toNat + 3) / 4) * strideOf .bc1) =
      min 9 ((((1 : Half).toNat + 3) / 4) * (((1 : Half).toNat + 3) / 4) * strideOf .bc1) ∧
    (∀ a, a < min 8 ((((1 : Half).toNat + 3) / 4) * (((1 : Half).toNat + 3) / 4) * strideOf .bc1) →
      (withPay blkA).pay.read a = (withPay (blkA ++ [1])).pay.read a) ∧
    (withPay blkA).config.rampWeights = (withPay (blkA ++ [1])).config.rampWeights := by decide +kernel

theorem test_witness_ChecksumSeesEveryByte : ∃ (s t t' : State) (a b : List Byte) (x y : Byte),
    exec (.crc32 (a ++ x :: b)) s = .next t ∧ exec (.crc32 (a ++ y :: b)) s = .next t' ∧ t.res = t'.res :=
  ⟨State.reset, _, _, [], [], 0, 0, rfl, rfl, rfl⟩

/-- Under each `CHUNK_MAX` a `CHUNK` of the longest data and one of the shortest that is refused. -/
theorem test_witness_ChunkAppendsItsFrame : State.reset.out.wf = true ∧
    (∃ data : List Byte, State.reset.ChunkFits data.length) ∧ (∃ data : List Byte, ¬ State.reset.ChunkFits data.length) ∧
    (State.reset.ChunkFits (2 ^ 32 - 1) ∧ ¬ State.reset.ChunkFits (2 ^ 32)) ∧
    ((conformant State.reset).ChunkFits (2 ^ 31 - 1) ∧ ¬ (conformant State.reset).ChunkFits (2 ^ 31)) :=
  ⟨rfl, ⟨[], by decide⟩, ⟨List.replicate (2 ^ 32) 0, by rw [List.length_replicate]; decide⟩, by decide, by decide⟩

/-- The three clauses of `ENC.VALIDATE`, each at a boundary. -/
theorem test_witness_EncoderValidatesTheLength :
    (5 : Nat) ≠ (1 : Half).toNat * (1 : Half).toNat * 4 ∧
    (0 = (0 : Half).toNat * (65535 : Half).toNat * 4 ∧ ((0 : Half) = 0 ∨ (65535 : Half) = 0)) ∧
    (4 = (1 : Half).toNat * (1 : Half).toNat * 4 ∧ (1 : Half) ≠ 0 ∧ (1 : Half) ≠ 0) := by decide

theorem test_witness_FixedPartsOfTheFile : (beginEncfile State.reset).out.wf = true := rfl

theorem test_witness_ScanlinesAreTheFilteredRows : (withImg 1 1 [255, 0, 0, 255]).h ≠ 0 ∧
    (withImg 1 1 [255, 0, 0, 255]).img.size =
      (withImg 1 1 [255, 0, 0, 255]).w.toNat * (withImg 1 1 [255, 0, 0, 255]).h.toNat * 4 := by decide +kernel

theorem test_witness_PixelDataIsCompressedIntoOneChunk : State.reset.out.wf = true ∧ State.reset.ChunkFits State.reset.z.size := by
  decide

theorem test_witness_InvalidFileOperandsAreTurnedAway :
    (5 : Nat) ≠ (1 : Half).toNat * (1 : Half).toNat * 4 ∧ ((0 : Half) = 0 ∨ (1 : Half) = 0) := by decide

/-- The operands and the buffer of `ENCFILE`; and a reader's `INFLATE` exists. -/
theorem test_witness_EncodeFile : (1 : Half) ≠ 0 ∧
    (withImg 1 1 [255, 0, 0, 255]).img.size = (1 : Half).toNat * (1 : Half).toNat * 4 ∧
    ∃ inflate : List Byte → List Byte, ∀ x, inflate (Config.compress x) = x :=
  ⟨by decide, rfl, Function.invFun Config.compress,
    Function.leftInverse_invFun fun _ _ h => Config.compressor.inj.mp h⟩

/-- A bad format alone, a zero dimension alone. -/
theorem test_witness_ConvertErrorLeavesNoFile :
    ((FormatCode.other 7).unrecognised = true ∧ (1 : Half) ≠ 0) ∧
    (FormatCode.bc1.unrecognised = false ∧ (0 : Half) = 0) := by decide

theorem test_witness_FileDependsOnlyOnItsImage :
    (withImg 1 1 [255, 0, 0, 255]).img = ({ withImg 1 1 [255, 0, 0, 255] with blen := 9, crc := 5 } : State).img ∧
    (conformant State.reset).config.chunkMax = (conformant (withPay blkA)).config.chunkMax := ⟨rfl, rfl⟩

theorem test_witness_Steps : ∃ t : State, State.reset.Canonical = true ∧ step { State.reset with pos := .command } =
    .next t ∧ State.reset.Coherent :=
  ⟨_, rfl, rfl, trivial⟩

/-- A step that changes `STATUS`. -/
theorem test_witness_StatusChangesOnlyAtTheEnd : ∃ t : State,
    step { State.reset with op := .encfile, blen := 1, pos := .command } = .next t ∧ t.status ≠ State.reset.status :=
  ⟨_, rfl, by decide⟩

/-- A coherent state inside the block loop, and one inside the encoder. -/
theorem test_witness_Coherence :
    ({ withPay blkA with fmt := .bc1, w := 1, h := 1, bprow := 1, bpcol := 1, stride := 8, img := Memory.zeros 4
                         pos := .op .blkFetch } : State).Coherent ∧
    ({ withImg 1 1 [255, 0, 0, 255] with pos := .op .sig } : State).Coherent :=
  ⟨⟨⟨rfl, by decide, by decide⟩, ⟨by decide, by decide⟩, rfl, rfl, Nat.le_refl 8, by decide, by decide⟩,
    ⟨by decide, by decide, rfl, rfl⟩⟩

end Sys2Proof.Tests
end

-- ==== Proofs: what every step keeps (10_state.md R22 to R24) ====
section
/-! The operations of the sequencer one by one: what each keeps and where the engine stands after it. -/

namespace Sys2Proof.Machine

/-! ### The block loop's invariant -/

/-- Writing `STATUS`, `BLK`, `IMG` and the model's own fields is inside the frame of the block loop. -/
theorem LoopFrame.update (s : State) (st : Status) (r c : BitVec 15) (m : Memory) (p : Position)
    (b : Option (List Byte)) :
    LoopFrame s { s with status := st, br := r, bc := c, img := m, pos := p, blk := b } :=
  { LoopFrame.refl s with }

/-- Inside the loop, what stays in the frame, keeps the size of `IMG` and stands in the grid is inside the loop. -/
theorem State.InLoop.of_loopFrame {s t : State} (hs : s.InLoop) (f : LoopFrame s t) (hi : t.img.size = s.img.size)
    (hr : t.br.toNat < s.bpcol.toNat) (hc : t.bc.toNat < s.bprow.toNat) : t.InLoop where
  validated := by simpa only [State.Validated, f.fmt, f.w, f.h] using hs.validated
  gridded := by simpa only [State.Gridded, f.bprow, f.bpcol, f.w, f.h] using hs.gridded
  strided := by simpa only [f.stride, f.fmt] using hs.strided
  sized := by simpa only [hi, f.w, f.h] using hs.sized
  payload := by simpa only [State.PayloadPresent, f.plen, f.pay] using hs.payload
  row := by simpa only [f.bpcol] using hr
  col := by simpa only [f.bprow] using hc

/-- The invariant of the loop reads neither `STATUS` nor the model's own fields. -/
theorem State.InLoop.update {s : State} (hs : s.InLoop) (st : Status) (p : Position) (b : Option (List Byte)) :
    ({ s with status := st, pos := p, blk := b } : State).InLoop :=
  hs.of_loopFrame (LoopFrame.update s st s.br s.bc s.img p b) rfl hs.row hs.col

theorem ceilQuarter_pos {n : Half} (h : n ≠ 0) : 0 < (ceilQuarter n).toNat := by
  have : n.toNat ≠ 0 := fun e => h (BitVec.eq_of_toNat_eq e)
  rw [toNat_ceilQuarter]
  omega

/-- `IMG.INIT` and `BLK <- (0, 0)` after `GRID` and `STRIDE` enter the loop (43_assembler.md R168). -/
theorem inLoop_startBlocks {s : State} (hv : s.Validated) (hp : s.PayloadPresent) (hg : s.Gridded)
    (hst : s.stride.toNat = strideOf s.fmt) : (startBlocks (imgInit s)).InLoop := by
  have ⟨_, hw, hh⟩ := hv
  have ⟨hbprow, hbpcol⟩ := hg
  have hrow : 0 < s.bpcol.toNat := hbpcol ▸ ceilQuarter_pos hh
  have hcol : 0 < s.bprow.toNat := hbprow ▸ ceilQuarter_pos hw
  exact ⟨hv, hg, hst, rfl, hp, hrow, hcol⟩

/-! ### What an operation of `DECIMG` that answers a next state has done -/

/-- `VALIDATE` raises, or passes and changes nothing. -/
theorem execValidate_eq_next {s t : State} (h : execValidate s = .next t) :
    t.pos = .idle ∨ t = s ∧ s.Validated := by
  unfold execValidate at h
  split at h
  · cases h
    exact .inl rfl
  · next hv =>
    cases h
    exact .inr ⟨rfl, validateError_eq_none.mp hv⟩

/-- `STRIDE` writes the stride of the format. -/
theorem stride_eq_next {s t : State} (h : stride s = .next t) :
    ∃ v : BitVec 5, t = { s with stride := v } ∧ v.toNat = strideOf s.fmt := by
  cases hf : s.fmt.unrecognised with
  | false =>
    obtain ⟨v, he, hv⟩ := stride_of_recognised hf
    rw [he] at h
    exact ⟨v, by cases h; rfl, hv⟩
  | true =>
    unfold stride at h
    split at h <;> simp_all [FormatCode.unrecognised]

/-- `BLKFETCH` writes `blk`: nothing, or a block of `STRIDE` bytes. -/
theorem blkFetch_eq_next {s t : State} (h : blkFetch s = .next t) :
    ∃ b, t = { s with blk := b } ∧ ∀ bs, b = some bs → bs.length = s.stride.toNat := by
  rcases blkFetch_cases s with ⟨-, he⟩ | ⟨-, -, he⟩ | ⟨-, -, he⟩ <;> rw [he] at h <;> cases h
  · exact ⟨none, rfl, fun _ hb => nomatch hb⟩
  · refine ⟨_, rfl, fun bs hb => ?_⟩
    cases hb
    simp

/-- What decoding a block keeps. -/
structure BlockFrame (s t : State) : Prop where
  frame : LoopFrame s t
  img : t.img = s.img
  br : t.br = s.br
  bc : t.bc = s.bc
  status : t.status = s.status
  pos : t.pos = s.pos

/-- `DISPATCH` writes the working registers of the block decoders and nothing else. -/
theorem dispatch_eq_next {s t : State} (h : dispatch s = .next t) : BlockFrame s t := by
  have hskip : s.blk = none → BlockFrame s t := fun hb => by
    simp only [dispatch, hb] at h
    cases h
    exact ⟨LoopFrame.refl s, rfl, rfl, rfl, rfl, rfl⟩
  have hblock : ∀ bs, s.blk = some bs → s.fmt.unrecognised = false → bs.length = strideOf s.fmt → BlockFrame s t :=
    fun bs hb hf hl => by
      obtain ⟨u, hu, hfr, hi, hr, hc, hst, hp, -⟩ := dispatch_spec hf hb hl
      rw [hu] at h
      cases h
      exact ⟨hfr, hi, hr, hc, hst, hp⟩
  unfold dispatch at h
  split at h
  · exact hskip ‹_›
  · next bs hb =>
    split at h
    · next hf =>
      split at h
      · next hl => exact hblock bs hb (by rw [hf]; rfl) (by rw [hf]; exact hl)
      · cases h
    · next hf =>
      split at h
      · next hl => exact hblock bs hb (by rw [hf]; rfl) (by rw [hf]; exact hl)
      · cases h
    · cases h

theorem inLoop_of_dispatch {s t : State} (hs : s.InLoop) (h : dispatch s = .next t) : t.InLoop := by
  have f := dispatch_eq_next h
  exact hs.of_loopFrame f.frame (by rw [f.img]) (f.br ▸ hs.row) (f.bc ▸ hs.col)

/-- The operation that a fetched block decodes to does what `DISPATCH` does (43_assembler.md R166). -/
theorem exec_decodedBlock {s : State} {bs : List Byte} {i : Instr} (hb : s.blk = some bs)
    (hd : decodeBlock s.fmt bs = .ok i) : exec i s = dispatch s := by
  rcases decodeBlock_cases hd with ⟨hf, hl, he⟩ | ⟨hf, hl, he⟩
  · rw [he, dispatch_bc1 hf hb hl]
  · rw [he, dispatch_bc3 hf hb hl]

/-- `PIXSTORE` on an image of the right size keeps the size. -/
theorem pixStore_size {s t : State} (hs : s.img.size = s.w.toNat * s.h.toNat * 4) (h : pixStore s = .next t) :
    t.img.size = s.img.size := by
  obtain ⟨m, hm, hsz⟩ := storePixels_isSome (patch := s.patch) (br := s.br.toNat) (bc := s.bc.toNat)
    (List.finRange 16) s.img hs
  unfold pixStore at h
  rw [hm] at h
  cases h
  exact hsz

/-- `BLKNEXT` completes the command, or moves `BLK` inside the grid. -/
theorem blkNext_idle_or_inLoop {s : State} (hs : s.InLoop) :
    (blkNext s).pos = .idle ∨ (blkNext s).InLoop := by
  rcases blkNext_spec hs.col hs.row with ⟨-, r, c, he, -, hc, hr⟩ | ⟨-, -, -, he⟩
  · rw [he]
    exact .inr (hs.of_loopFrame (LoopFrame.update s s.status r c s.img s.pos s.blk) rfl hr hc)
  · rw [he]
    exact .inl rfl

/-! ### What an operation of `ENCFILE` that answers a next state has done -/

/-- What no phase of the encoder writes. -/
structure PhaseFrame (s t : State) : Prop where
  w : t.w = s.w
  h : t.h = s.h
  blen : t.blen = s.blen
  img : t.img = s.img
  config : t.config = s.config
  status : t.status = s.status
  pos : t.pos = s.pos

theorem State.InEncode.of_phaseFrame {s t : State} (hs : s.InEncode) (f : PhaseFrame s t) : t.InEncode where
  width := by simpa only [f.w] using hs.width
  height := by simpa only [f.h] using hs.height
  length := by simpa only [f.blen, f.w, f.h] using hs.length
  buffer := by simpa only [State.BufferPresent, f.blen, f.img] using hs.buffer

/-- The invariant of the encoder does not read where the engine stands. -/
theorem State.InEncode.goTo {s : State} (hs : s.InEncode) (p : Position) : (goTo p s).InEncode :=
  ⟨hs.width, hs.height, hs.length, hs.buffer⟩

/-- `ENC.VALIDATE` raises, or passes and changes nothing. -/
theorem encValidate_eq_next {s t : State} (h : encValidate s = .next t) :
    t.pos = .idle ∨ t = s ∧ s.w ≠ 0 ∧ s.h ≠ 0 ∧ s.blen = s.w.toNat * s.h.toNat * 4 := by
  rcases encValidate_cases s with ⟨-, he⟩ | ⟨-, -, he⟩ | ⟨hl, hw, hh, he⟩ <;> rw [he] at h <;> cases h
  · exact .inl rfl
  · exact .inr ⟨rfl, hw, hh, hl⟩

theorem sig_phaseFrame (s : State) : PhaseFrame s (sig s) := ⟨rfl, rfl, rfl, rfl, rfl, rfl, rfl⟩

theorem compress_phaseFrame (s : State) : PhaseFrame s (compress s) := ⟨rfl, rfl, rfl, rfl, rfl, rfl, rfl⟩

theorem scan_phaseFrame {s t : State} (h : scan s = .next t) : PhaseFrame s t := by
  obtain ⟨v, m, rfl, -⟩ := scan_eq_next h
  exact ⟨rfl, rfl, rfl, rfl, rfl, rfl, rfl⟩

/-- A phase that frames a chunk. -/
theorem chunk_phaseFrame {tag : Tag} {data : List Byte} {p : Phase} {s t : State}
    (h : chunk tag data (enterPhase p s) = .next t) : PhaseFrame s t := by
  obtain ⟨d, c, m, rfl, -⟩ := chunk_eq_next h
  exact ⟨rfl, rfl, rfl, rfl, rfl, rfl, rfl⟩

/-! ### One operation a step -/

/-- The operations after which the sequencer has another one (43_assembler.md R168, 45_file_encoder.md R207). -/
inductive Sequenced : Instr → Prop
  | validate : Sequenced .validate
  | grid : Sequenced .grid
  | stride : Sequenced .stride
  | imgInit : Sequenced .imgInit
  | blkFetch : Sequenced .blkFetch
  | dispatch : Sequenced .dispatch
  | pixStore : Sequenced .pixStore
  | blkNext : Sequenced .blkNext
  | encValidate : Sequenced .encValidate
  | sig : Sequenced .sig
  | ihdr : Sequenced .ihdr
  | scan : Sequenced .scan
  | compress : Sequenced .compress
  | idat : Sequenced .idat

/-- After any other operation the engine is idle. -/
theorem sequenced_or_idle (i : Instr) : Sequenced i ∨ ∀ t, (successor i t).pos = .idle := by
  cases i
  case validate => exact .inl .validate
  case grid => exact .inl .grid
  case stride => exact .inl .stride
  case imgInit => exact .inl .imgInit
  case blkFetch => exact .inl .blkFetch
  case dispatch => exact .inl .dispatch
  case pixStore => exact .inl .pixStore
  case blkNext => exact .inl .blkNext
  case encValidate => exact .inl .encValidate
  case sig => exact .inl .sig
  case ihdr => exact .inl .ihdr
  case scan => exact .inl .scan
  case compress => exact .inl .compress
  case idat => exact .inl .idat
  all_goals exact .inr fun _ => rfl

/-- A step changes nothing, ends idle, runs a decoded block, or runs an operation of a command that goes on. -/
theorem step_idle_or_goes_on {s t : State} (h : step s = .next t) :
    t = s ∨ t.pos = .idle ∨
    (∃ u, s.pos = .block ∧ dispatch s = .next u ∧ t = goTo (.op .pixStore) u) ∨
    ∃ i u, Sequenced i ∧ s.pos = .op i ∧ exec i s = .next u ∧ u.pos ≠ .idle ∧ t = successor i u := by
  rcases step_cases h with ⟨-, rfl⟩ | ⟨i, u, hf, hu, rfl⟩
  · exact .inl rfl
  rcases fetch_cases hf with ⟨hp, -⟩ | ⟨hp, bs, hb, hd⟩ | hp
  · rw [hp]
    exact .inr (.inl rfl)
  · rw [exec_decodedBlock hb hd] at hu
    exact .inr (.inr (.inl ⟨u, hp, hu, by rw [hp]; rfl⟩))
  · have hadv : advance s.pos i u = if u.pos = .idle then u else successor i u := by rw [hp]; rfl
    by_cases hidle : u.pos = .idle
    · rw [hadv, if_pos hidle]
      exact .inr (.inl hidle)
    · rw [hadv, if_neg hidle]
      rcases sequenced_or_idle i with hi | hi
      · exact .inr (.inr (.inr ⟨i, u, hi, hp, hu, hidle, rfl⟩))
      · exact .inr (.inl (hi u))

/-! ### Coherence -/

theorem coherent_of_idle {s : State} (h : s.pos = .idle) : s.Coherent := by
  unfold State.Coherent
  rw [h]
  trivial

/-- An operation of a command that goes on leaves what its successor needs. -/
theorem Sequenced.coherent_successor {i : Instr} (hi : Sequenced i) {s u : State} (hp : s.pos = .op i)
    (hs : s.Coherent) (hu : exec i s = .next u) (hn : u.pos ≠ .idle) : (successor i u).Coherent := by
  unfold State.Coherent at hs
  rw [hp] at hs
  cases hi with
  | validate =>
    rcases execValidate_eq_next hu with hidle | ⟨rfl, hv⟩
    · exact absurd hidle hn
    · exact ⟨hv, hs⟩
  | grid =>
    cases hu
    obtain ⟨hv, hpay⟩ := hs
    exact ⟨hv, hpay, rfl, rfl⟩
  | stride =>
    obtain ⟨v, rfl, hst⟩ := stride_eq_next hu
    obtain ⟨hv, hpay, hg⟩ := hs
    exact ⟨hv, hpay, hg, hst⟩
  | imgInit =>
    cases hu
    obtain ⟨hv, hpay, hg, hst⟩ := hs
    exact (inLoop_startBlocks hv hpay hg hst).update _ _ _
  | blkFetch =>
    obtain ⟨b, rfl, hlen⟩ := blkFetch_eq_next hu
    have hs : s.InLoop := hs
    cases b with
    | none => exact hs.update _ _ _
    | some bs => exact ⟨hs.update _ _ _, bs, rfl, (hlen bs rfl).trans hs.strided⟩
  | dispatch =>
    obtain ⟨hloop, -⟩ := hs
    exact (inLoop_of_dispatch hloop hu).update _ _ _
  | pixStore =>
    have hs : s.InLoop := hs
    have hsize := pixStore_size hs.sized hu
    obtain ⟨m, rfl⟩ := pixStore_eq_next hu
    exact hs.of_loopFrame (LoopFrame.update s s.status s.br s.bc m (.op .blkNext) s.blk) hsize hs.row hs.col
  | blkNext =>
    cases hu
    rcases blkNext_idle_or_inLoop hs with hidle | hloop
    · exact absurd hidle hn
    · exact hloop.update _ _ _
  | encValidate =>
    rcases encValidate_eq_next hu with hidle | ⟨rfl, hw, hh, hl⟩
    · exact absurd hidle hn
    · exact ⟨hw, hh, hl, hs⟩
  | sig =>
    cases hu
    exact (State.InEncode.of_phaseFrame hs (sig_phaseFrame s)).goTo _
  | ihdr => exact (State.InEncode.of_phaseFrame hs (chunk_phaseFrame hu)).goTo _
  | scan => exact (State.InEncode.of_phaseFrame hs (scan_phaseFrame hu)).goTo _
  | compress =>
    cases hu
    exact (State.InEncode.of_phaseFrame hs (compress_phaseFrame s)).goTo _
  | idat => exact (State.InEncode.of_phaseFrame hs (chunk_phaseFrame hu)).goTo _

/-- Settles O58: a step that goes on runs a block or an operation of the sequencer, and each leaves what its successor
needs. -/
theorem everyStepKeepsCoherence : Obligations.EveryStepKeepsCoherence := by
  unfold Obligations.EveryStepKeepsCoherence
  intro s t hs h
  rcases step_idle_or_goes_on h with rfl | hidle | ⟨u, hp, hu, rfl⟩ | ⟨i, u, hi, hp, hu, hn, rfl⟩
  · exact hs
  · exact coherent_of_idle hidle
  · unfold State.Coherent at hs
    rw [hp] at hs
    obtain ⟨hloop, -⟩ := hs
    exact (inLoop_of_dispatch hloop hu).update _ _ _
  · exact hi.coherent_successor hp hs hu hn

/-! ### `STATUS` -/

/-- Going on from an operation to the next does not write `STATUS`. -/
theorem Sequenced.status_successor {i : Instr} (hi : Sequenced i) (t : State) :
    (successor i t).status = t.status := by
  cases hi
  case blkFetch =>
    show (if t.blk = none then goTo (.op .blkNext) t else goTo .block t).status = t.status
    split <;> rfl
  all_goals rfl

/-- An operation that does not end its command does not write `STATUS`. -/
theorem Sequenced.status_exec {i : Instr} (hi : Sequenced i) {s u : State} (hu : exec i s = .next u)
    (hn : u.pos ≠ .idle) : u.status = s.status := by
  cases hi with
  | validate =>
    rcases execValidate_eq_next hu with hidle | ⟨rfl, -⟩
    · exact absurd hidle hn
    · rfl
  | grid => cases hu; rfl
  | stride =>
    obtain ⟨v, rfl, -⟩ := stride_eq_next hu
    rfl
  | imgInit => cases hu; rfl
  | blkFetch =>
    obtain ⟨b, rfl, -⟩ := blkFetch_eq_next hu
    rfl
  | dispatch => exact (dispatch_eq_next hu).status
  | pixStore =>
    obtain ⟨m, rfl⟩ := pixStore_eq_next hu
    rfl
  | blkNext =>
    cases hu
    rcases blkNext_cases s with ⟨r, c, he⟩ | he
    · rw [he]
    · exact absurd (by rw [he]; rfl) hn
  | encValidate =>
    rcases encValidate_eq_next hu with hidle | ⟨rfl, -⟩
    · exact absurd hidle hn
    · rfl
  | sig => cases hu; rfl
  | ihdr => exact (chunk_phaseFrame hu).status
  | scan => exact (scan_phaseFrame hu).status
  | compress => cases hu; rfl
  | idat => exact (chunk_phaseFrame hu).status

/-- Settles O57: of the steps that do not end idle, none writes `STATUS`. -/
theorem statusChangesOnlyAtTheEnd : Obligations.StatusChangesOnlyAtTheEnd := by
  unfold Obligations.StatusChangesOnlyAtTheEnd
  intro s t h hne
  rcases step_idle_or_goes_on h with rfl | hidle | ⟨u, -, hu, rfl⟩ | ⟨i, u, hi, -, hu, hn, rfl⟩
  · exact absurd rfl hne
  · exact hidle
  · exact absurd (dispatch_eq_next hu).status hne
  · exact absurd ((hi.status_successor u).trans (hi.status_exec hu hn)) hne

end Sys2Proof.Machine
end

-- ==== Proofs: what the image depends on (10_state.md R34, 43_assembler.md R173) ====
section
/-! A valid `DECIMG` as one lemma, its image as a function of the operands and the blocks of the grid. -/

namespace Sys2Proof.Machine

/-! ### A valid `DECIMG` -/

/-- `DECIMG` on validated operands with the payload present: the loop's frame from the prepared state on, completion at
the last block, and every block of the grid in `IMG` (43_assembler.md R168, R170). -/
theorem runDecimg_spec {s : State} (hv : s.Validated) (hp : s.PayloadPresent) :
    ∃ (v : BitVec 5) (t : State), runDecimg s = .next t ∧ v.toNat = strideOf s.fmt ∧
      LoopFrame (startBlocks (imgInit { grid s with stride := v })) t ∧ t.status = .ok ∧ t.pos = .idle ∧
      t.br.toNat + 1 = (s.h.toNat + 3) / 4 ∧ t.bc.toNat + 1 = (s.w.toNat + 3) / 4 ∧
      t.img.size = s.w.toNat * s.h.toNat * 4 ∧
      Filled ((s.w.toNat + 3) / 4 * ((s.h.toNat + 3) / 4)) t := by
  obtain ⟨v, hstride, hval⟩ : ∃ v : BitVec 5, stride (grid s) = .next { grid s with stride := v } ∧
      v.toNat = strideOf s.fmt := stride_of_recognised (s := grid s) hv.1
  have hloop : (startBlocks (imgInit { grid s with stride := v })).InLoop := inLoop_startBlocks hv hp ⟨rfl, rfl⟩ hval
  have hidx : (startBlocks (imgInit { grid s with stride := v })).blkIdx = 0 := Nat.zero_mul _
  have hempty : Filled 0 (startBlocks (imgInit { grid s with stride := v })) :=
    ⟨rfl, fun a => (if_neg fun h => Nat.not_lt_zero _ h.2).symm⟩
  obtain ⟨t, ht, hfr, hst, hpos, hbr, hbc, hsz, hfill⟩ := blockLoop_spec
    ((ceilQuarter s.w).toNat * (ceilQuarter s.h).toNat) _ hloop (by rw [hidx]; exact hempty)
    (by rw [hidx, Nat.zero_add]; rfl)
  have hrun : runDecimg s = .next t := by
    unfold runDecimg
    rw [validateError_eq_none.mpr hv, prepareDecimg, hstride]
    exact ht
  rw [← toNat_ceilQuarter, ← toNat_ceilQuarter]
  exact ⟨v, t, hrun, hval, hfr, hst, hpos, hbr, hbc, hsz, hfill⟩

/-- Every byte of the image belongs to a block of the grid. -/
theorem blockOf_lt {w h a : Nat} (ha : a < w * h * 4) : blockOf w a < (w + 3) / 4 * ((h + 3) / 4) := by
  have hw : 0 < w := by
    rcases Nat.eq_zero_or_pos w with rfl | hw
    · simp at ha
    · exact hw
  have hx : a / 4 % w < w := Nat.mod_lt _ hw
  have hy : a / 4 / w < h := by
    rw [Nat.div_lt_iff_lt_mul hw, Nat.mul_comm h w]
    omega
  calc blockOf w a < (a / 4 / w / 4 + 1) * ((w + 3) / 4) := by unfold blockOf; rw [Nat.add_mul]; omega
    _ ≤ (h + 3) / 4 * ((w + 3) / 4) := Nat.mul_le_mul_right _ (by omega)
    _ = (w + 3) / 4 * ((h + 3) / 4) := Nat.mul_comm _ _

/-- The image of a valid `DECIMG`, byte by byte. -/
theorem runDecimg_image {s : State} (hv : s.Validated) (hp : s.PayloadPresent) :
    ∃ t, runDecimg s = .next t ∧ t.status = .ok ∧ t.img.wf = true ∧ t.img.size = s.w.toNat * s.h.toNat * 4 ∧
      ∀ a, t.img.read a =
        if a < s.w.toNat * s.h.toNat * 4 then
          (imagePixel s.config s.fmt s.w.toNat s.plen s.pay.read (a / 4 % s.w.toNat) (a / 4 / s.w.toNat)).bytes.getD
            (a % 4) 0
        else 0 := by
  obtain ⟨v, t, hrun, -, f, hst, -, -, -, hsz, hwf, hread⟩ := runDecimg_spec hv hp
  have hw : t.w = s.w := f.w
  have hfmt : t.fmt = s.fmt := f.fmt
  have hplen : t.plen = s.plen := f.plen
  have hpay : t.pay = s.pay := f.pay
  have hconfig : t.config = s.config := f.config
  refine ⟨t, hrun, hst, hwf, hsz, fun a => ?_⟩
  rw [hread a, hsz, hw, hfmt, hplen, hpay, hconfig]
  by_cases ha : a < s.w.toNat * s.h.toNat * 4
  · rw [if_pos ⟨ha, blockOf_lt ha⟩, if_pos ha]
  · rw [if_neg fun h => ha h.1, if_neg ha]

/-! ### What a pixel depends on -/

/-- The patch of `BC1.DEC` depends on the block alone (41_bc1.md R128). -/
theorem bc1Dec_patch_eq (b : BitVec 64) (s s' : State) : (bc1Dec b s).patch = (bc1Dec b s').patch := by
  rw [bc1Dec_eq b s s']

/-- The patch of `BC3.DEC` depends on the block and `RAMP_WEIGHTS` alone (42_bc3.md R149). -/
theorem bc3Dec_patch_eq (b : BitVec 128) {s s' : State} (hk : s.config.rampWeights = s'.config.rampWeights) :
    (bc3Dec b s).patch = (bc3Dec b s').patch := by
  rw [bc3Dec_eq b s s' hk.symm]

/-- A pixel is determined by its block's bytes below `PLEN` and, for BC3, `RAMP_WEIGHTS`: payload bytes from the end `n`
of the grid's blocks on, and a `PLEN` beyond it, do not matter. -/
theorem imagePixel_congr {c c' : Config.Parameters} {f : FormatCode} {w x y n plen plen' : Nat}
    {pay pay' : Nat → Byte} (hk : f = .bc3 → c.rampWeights = c'.rampWeights)
    (hend : (y / 4 * ((w + 3) / 4) + x / 4) * strideOf f + strideOf f ≤ n) (hlen : min plen n = min plen' n)
    (hpay : ∀ a, a < min plen n → pay a = pay' a) :
    imagePixel c f w plen pay x y = imagePixel c' f w plen' pay' x y := by
  unfold imagePixel
  generalize y / 4 * ((w + 3) / 4) + x / 4 = k at hend ⊢
  by_cases hfit : k * strideOf f + strideOf f ≤ plen
  · have hfit' : k * strideOf f + strideOf f ≤ plen' := by omega
    have hbytes : ((List.range (strideOf f)).map fun j => pay (k * strideOf f + j)) =
        (List.range (strideOf f)).map fun j => pay' (k * strideOf f + j) :=
      List.map_congr_left fun j hj => hpay _ (by have := List.mem_range.mp hj; omega)
    simp only [if_pos hfit, if_pos hfit', hbytes]
    cases f with
    | bc1 =>
      dsimp only
      rw [bc1Dec_patch_eq _ { State.reset with config := c } { State.reset with config := c' }]
    | bc3 =>
      dsimp only
      rw [bc3Dec_patch_eq _ (s := { State.reset with config := c }) (s' := { State.reset with config := c' }) (hk rfl)]
    | other n => rfl
  · have hfit' : ¬ k * strideOf f + strideOf f ≤ plen' := by omega
    simp only [if_neg hfit, if_neg hfit']

/-! ### What the image depends on -/

/-- Two runs that agree on the operands, the payload of the grid's blocks and, for BC3, `RAMP_WEIGHTS` leave the same
image. -/
theorem runDecimg_image_congr {s s' : State} (hv : s.Validated) (hp : s.PayloadPresent) (hp' : s'.PayloadPresent)
    (hf : s'.fmt = s.fmt) (hw : s'.w = s.w) (hh : s'.h = s.h)
    (hk : s.fmt = .bc3 → s.config.rampWeights = s'.config.rampWeights) {n : Nat}
    (hn : n = (s.w.toNat + 3) / 4 * ((s.h.toNat + 3) / 4) * strideOf s.fmt)
    (hlen : min s.plen n = min s'.plen n) (hpay : ∀ a, a < min s.plen n → s.pay.read a = s'.pay.read a) :
    ∃ t t', runDecimg s = .next t ∧ runDecimg s' = .next t' ∧ t.img = t'.img ∧ t.status = t'.status := by
  have hv' : s'.Validated := by simpa only [State.Validated, hf, hw, hh] using hv
  obtain ⟨t, hrun, hst, hwf, hsz, hread⟩ := runDecimg_image hv hp
  obtain ⟨t', hrun', hst', hwf', hsz', hread'⟩ := runDecimg_image hv' hp'
  rw [hw, hh] at hsz'
  rw [hf, hw, hh] at hread'
  refine ⟨t, t', hrun, hrun', ?_, hst.trans hst'.symm⟩
  refine Memory.ext_of_read hwf hwf' (hsz.trans hsz'.symm) fun a => ?_
  rw [hread a, hread' a]
  by_cases ha : a < s.w.toNat * s.h.toNat * 4
  · rw [if_pos ha, if_pos ha]
    have hend : (a / 4 / s.w.toNat / 4 * ((s.w.toNat + 3) / 4) + a / 4 % s.w.toNat / 4) * strideOf s.fmt +
        strideOf s.fmt ≤ n := by
      rw [hn, ← Nat.succ_mul]
      exact Nat.mul_le_mul_right _ (blockOf_lt ha)
    rw [imagePixel_congr hk hend hlen hpay]
  · rw [if_neg ha, if_neg ha]

/-- Settles O38: both formats are `DECIMG` on the presented operands, whose images `runDecimg_image_congr` compares. -/
theorem imageDependsOnlyOnItsBlocks : Obligations.ImageDependsOnlyOnItsBlocks := by
  unfold Obligations.ImageDependsOnlyOnItsBlocks
  intro f i i' w h plen plen' s s' hp hp' hi hlen hpay hw hh hk
  have hcongr (hf : f.unrecognised = false) : ∃ t t', runDecimg (presentDecimg f w h plen s) = .next t ∧
      runDecimg (presentDecimg f w h plen' s') = .next t' ∧ t.img = t'.img ∧ t.status = t'.status :=
    runDecimg_image_congr (s := presentDecimg f w h plen s) (s' := presentDecimg f w h plen' s') ⟨hf, hw, hh⟩ hp hp'
      rfl rfl rfl hk rfl hlen hpay
  simp only [List.mem_cons, List.not_mem_nil, or_false, Prod.mk.injEq] at hi
  rcases hi with ⟨rfl, rfl, rfl⟩ | ⟨rfl, rfl, rfl⟩
  · exact hcongr rfl
  · exact hcongr rfl

end Sys2Proof.Machine
end

-- ==== Proofs: what the file depends on (10_state.md R34) ====
section
/-! Two encoders with the same operands, image and `CHUNK_MAX`, phase by phase. -/

namespace Sys2Proof.Machine

/-! ### Outcomes that agree -/

/-- Two runs end alike: in next states that `R` relates, in the same fault, or in the same refusal. -/
inductive EndAlike (R : State → State → Prop) :
    Host.Outcome State Fault Refusal → Host.Outcome State Fault Refusal → Prop
  | next {t t' : State} (h : R t t') : EndAlike R (.next t) (.next t')
  | fault (r : Fault) : EndAlike R (.fault r) (.fault r)
  | refused (r : Refusal) : EndAlike R (.refused r) (.refused r)

/-- Going on alike from runs that end alike. -/
theorem EndAlike.andThen {R Q : State → State → Prop} {o o' : Host.Outcome State Fault Refusal}
    {f f' : State → Host.Outcome State Fault Refusal} (h : EndAlike R o o')
    (hf : ∀ t t', R t t' → EndAlike Q (f t) (f' t')) : EndAlike Q (andThen o f) (andThen o' f') := by
  cases h with
  | next h => exact hf _ _ h
  | fault r => exact .fault r
  | refused r => exact .refused r

/-! ### The phases on states that agree -/

/-- What the encoder reads and has written of the file so far. `SCAN` and `Z` are not here: a command writes them
before it reads them. -/
structure SameFile (s s' : State) : Prop where
  w : s.w = s'.w
  h : s.h = s'.h
  img : s.img = s'.img
  out : s.out = s'.out
  chunkMax : s.config.chunkMax = s'.config.chunkMax

theorem SameFile.enterPhase {s s' : State} (h : SameFile s s') (p : Phase) :
    SameFile (enterPhase p s) (enterPhase p s') :=
  ⟨h.w, h.h, h.img, h.out, h.chunkMax⟩

theorem chunk_alike {s s' : State} (h : SameFile s s') (tag : Tag) (data : List Byte) :
    EndAlike SameFile (chunk tag data s) (chunk tag data s') := by
  by_cases hl : s.ChunkFits data.length
  · have hl' : s'.ChunkFits data.length := by simpa only [State.ChunkFits, h.chunkMax] using hl
    rw [chunk_spec tag data s hl, chunk_spec tag data s' hl', h.out]
    exact .next ⟨h.w, h.h, h.img, rfl, h.chunkMax⟩
  · have hl' : ¬ s'.ChunkFits data.length := by simpa only [State.ChunkFits, h.chunkMax] using hl
    rw [chunk_refused tag data s hl, chunk_refused tag data s' hl']
    exact .refused _

theorem sig_alike {s s' : State} (h : SameFile s s') : SameFile (sig s) (sig s') :=
  ⟨h.w, h.h, h.img, congrArg (·.append signature) h.out, h.chunkMax⟩

theorem ihdr_alike {s s' : State} (h : SameFile s s') : EndAlike SameFile (ihdr s) (ihdr s') := by
  unfold ihdr
  rw [h.w, h.h]
  exact chunk_alike (h.enterPhase .ihdr) _ _

/-- Agreement with the scanline stream included. -/
def SameScan (s s' : State) : Prop := SameFile s s' ∧ s.scan = s'.scan

theorem scanRow_alike {s s' : State} (h : SameScan s s') (r : Nat) :
    EndAlike SameScan (scanRow r s) (scanRow r s') := by
  obtain ⟨hf, hs⟩ := h
  have hrow : s.img.readBytes (r * s.w.toNat * 4) (s.w.toNat * 4) =
      s'.img.readBytes (r * s'.w.toNat * 4) (s'.w.toNat * 4) := by rw [hf.w, hf.img]
  unfold scanRow
  rw [hrow]
  split
  · next bs _ =>
    exact .next ⟨⟨hf.w, hf.h, hf.img, hf.out, hf.chunkMax⟩, congrArg (fun m : Memory => m.append (0 :: bs)) hs⟩
  · exact .fault _

theorem scanRows_alike : ∀ (n r : Nat) {s s' : State}, SameScan s s' →
    EndAlike SameScan (scanRows n r s) (scanRows n r s')
  | 0, _, _, _, h => .next h
  | n + 1, r, _, _, h => (scanRow_alike h r).andThen fun _ _ ht => scanRows_alike n (r + 1) ht

/-- `SCAN` starts anew, so the streams agree after it whatever they held before. -/
theorem scan_alike {s s' : State} (h : SameFile s s') : EndAlike SameScan (scan s) (scan s') := by
  unfold scan
  rw [h.h]
  exact scanRows_alike _ _ ⟨⟨h.w, h.h, h.img, h.out, h.chunkMax⟩, rfl⟩

theorem compress_alike {s s' : State} (h : SameScan s s') :
    SameFile (compress s) (compress s') ∧ (compress s).z = (compress s').z := by
  obtain ⟨hf, hs⟩ := h
  exact ⟨⟨hf.w, hf.h, hf.img, hf.out, hf.chunkMax⟩,
    congrArg (fun m : Memory => Memory.ofBytes (Config.compress m.bytes)) hs⟩

theorem idat_alike {s s' : State} (h : SameFile s s') (hz : s.z = s'.z) :
    EndAlike SameFile (idat s) (idat s') := by
  unfold idat
  rw [hz]
  exact chunk_alike (h.enterPhase .idat) _ _

theorem iend_alike {s s' : State} (h : SameFile s s') : EndAlike SameFile (iend s) (iend s') :=
  chunk_alike (h.enterPhase .iend) _ _

/-! ### The command -/

/-- What a host can see of an encoding: the file and the outcome. -/
def SameEnd (t t' : State) : Prop := t.out = t'.out ∧ t.status = t'.status

theorem encodePhases_alike {s s' : State} (h : SameFile s s') :
    EndAlike SameEnd (encodePhases s) (encodePhases s') :=
  (ihdr_alike (sig_alike h)).andThen fun _ _ ha =>
  (scan_alike ha).andThen fun _ _ hb =>
  have ⟨hf, hz⟩ := compress_alike hb
  (idat_alike hf hz).andThen fun _ _ hc =>
  (iend_alike hc).andThen fun _ _ hd => .next ⟨hd.out, rfl⟩

/-- Everything `ENCFILE` can do: raise, be refused, or run the phases (45_file_encoder.md R207). -/
theorem runEncfile_eq (s : State) :
    runEncfile s =
      if s.blen ≠ s.w.toNat * s.h.toNat * 4 then .next (raise .bufferSizeMismatch (beginEncfile s))
      else if s.w = 0 ∨ s.h = 0 then .refused .zeroDimensionEncode
      else encodePhases (beginEncfile s) := by
  have hcases := encValidate_cases (beginEncfile s)
  simp only [beginEncfile_blen, beginEncfile_w, beginEncfile_h] at hcases
  unfold runEncfile
  rcases hcases with ⟨hl, he⟩ | ⟨hl, hz, he⟩ | ⟨hl, hw, hh, he⟩
  · rw [he, andThen_next, if_pos hl, if_pos hl]
  · rw [he, andThen_refused, if_neg (not_not.mpr hl), if_pos hz]
  · rw [he, andThen_next, if_neg (not_not.mpr hl), if_neg (not_not.mpr hl), if_neg (not_or.mpr ⟨hw, hh⟩)]

theorem runEncfile_alike {s s' : State} (hw : s.w = s'.w) (hh : s.h = s'.h) (hb : s.blen = s'.blen)
    (hi : s.img = s'.img) (hc : s.config.chunkMax = s'.config.chunkMax) :
    EndAlike SameEnd (runEncfile s) (runEncfile s') := by
  have hbegin : SameFile (beginEncfile s) (beginEncfile s') := ⟨hw, hh, hi, rfl, hc⟩
  rw [runEncfile_eq, runEncfile_eq, hw, hh, hb]
  split
  · exact .next ⟨rfl, rfl⟩
  · split
    · exact .refused _
    · exact encodePhases_alike hbegin

/-- Settles O54, by the relation `EndAlike` phase by phase. -/
theorem fileDependsOnlyOnItsImage : Obligations.FileDependsOnlyOnItsImage := by
  unfold Obligations.FileDependsOnlyOnItsImage
  intro w h blen s s' hi hc
  have halike : EndAlike SameEnd (exec (.encfile w h blen) s) (exec (.encfile w h blen) s') :=
    runEncfile_alike (s := presentEncfile w h blen s) (s' := presentEncfile w h blen s') rfl rfl rfl hi hc
  generalize exec (.encfile w h blen) s = o, exec (.encfile w h blen) s' = o' at halike
  cases halike with
  | next h => exact h
  | fault r => rfl
  | refused r => rfl

end Sys2Proof.Machine
end

-- ==== Proofs: what every step keeps of the byte spaces (20_memory.md R50, R51, R64) ====
section
/-! What the operations do to the five byte spaces and the configuration, for every operation, fault-free or not. -/

namespace Sys2Proof.Machine

/-! ### What an outcome keeps -/

/-- `PAY` and the configuration stay, and the four spaces that the engine writes stay in canonical form. -/
structure KeepsSpaces (s t : State) : Prop where
  pay : t.pay = s.pay
  config : t.config = s.config
  img : s.img.wf = true → t.img.wf = true
  scan : s.scan.wf = true → t.scan.wf = true
  z : s.z.wf = true → t.z.wf = true
  out : s.out.wf = true → t.out.wf = true

/-- What writes no byte space keeps them. -/
theorem KeepsSpaces.of_eq {s t : State} (pay : t.pay = s.pay) (config : t.config = s.config) (img : t.img = s.img)
    (scan : t.scan = s.scan) (z : t.z = s.z) (out : t.out = s.out) : KeepsSpaces s t :=
  ⟨pay, config, fun h => img ▸ h, fun h => scan ▸ h, fun h => z ▸ h, fun h => out ▸ h⟩

theorem KeepsSpaces.refl (s : State) : KeepsSpaces s s := .of_eq rfl rfl rfl rfl rfl rfl

theorem KeepsSpaces.trans {s t u : State} (a : KeepsSpaces s t) (b : KeepsSpaces t u) : KeepsSpaces s u :=
  ⟨b.pay.trans a.pay, b.config.trans a.config, b.img ∘ a.img, b.scan ∘ a.scan, b.z ∘ a.z, b.out ∘ a.out⟩

theorem KeepsSpaces.canonical {s t : State} (k : KeepsSpaces s t) (hs : s.Canonical = true) : t.Canonical = true := by
  simp only [State.Canonical, Bool.and_eq_true] at hs ⊢
  obtain ⟨⟨⟨⟨hpay, himg⟩, hscan⟩, hz⟩, hout⟩ := hs
  exact ⟨⟨⟨⟨k.pay ▸ hpay, k.img himg⟩, k.scan hscan⟩, k.z hz⟩, k.out hout⟩

/-- An operation run in `s` keeps the spaces if it answers a next state at all. -/
def OutcomeKeeps (s : State) (o : Host.Outcome State Fault Refusal) : Prop := ∀ t, o = .next t → KeepsSpaces s t

theorem OutcomeKeeps.next {s t : State} (k : KeepsSpaces s t) : OutcomeKeeps s (.next t) := fun _ h => by
  cases h
  exact k

theorem OutcomeKeeps.andThen {s : State} {o : Host.Outcome State Fault Refusal}
    {f : State → Host.Outcome State Fault Refusal} (ho : OutcomeKeeps s o) (hf : ∀ u, OutcomeKeeps u (f u)) :
    OutcomeKeeps s (andThen o f) := fun t h => by
  obtain ⟨u, hu, ht⟩ := andThen_eq_next.mp h
  exact (ho u hu).trans (hf u t ht)

/-- What an operation does after a first update that keeps the spaces. -/
theorem OutcomeKeeps.after {s u : State} {o : Host.Outcome State Fault Refusal} (k : KeepsSpaces s u)
    (ho : OutcomeKeeps u o) : OutcomeKeeps s o := fun t h => k.trans (ho t h)

/-! ### The operations of `DECIMG` -/

/-- Storing a pixel keeps the canonical form, whatever the size of the space. -/
theorem storePixel_wf {patch : Vector Pixel 16} {br bc w h : Nat} {p : Fin 16} {m m' : Memory} (hm : m.wf = true)
    (hst : storePixel patch br bc w h p m = some m') : m'.wf = true := by
  unfold storePixel at hst
  split at hst
  · obtain ⟨-, -, hwf, -⟩ := Memory.writeBytes_spec hm hst
    exact hwf
  · cases hst
    exact hm

theorem storePixels_wf {patch : Vector Pixel 16} {br bc w h : Nat} :
    ∀ (ps : List (Fin 16)) {m m' : Memory}, m.wf = true → storePixels patch br bc w h ps m = some m' → m'.wf = true
  | [], _, _, hm, hst => by
    cases hst
    exact hm
  | p :: ps, m, m', hm, hst => by
    unfold storePixels at hst
    split at hst
    · next m1 h1 => exact storePixels_wf ps (storePixel_wf hm h1) hst
    · cases hst

theorem pixStore_keeps (s : State) : OutcomeKeeps s (pixStore s) := by
  unfold pixStore
  split
  · next m hm => exact .next ⟨rfl, rfl, fun hw => storePixels_wf _ hw hm, id, id, id⟩
  · exact fun _ h => nomatch h

theorem blkFetch_keeps (s : State) : OutcomeKeeps s (blkFetch s) := fun _ h => by
  obtain ⟨b, rfl, -⟩ := blkFetch_eq_next h
  exact .of_eq rfl rfl rfl rfl rfl rfl

theorem dispatch_keeps (s : State) : OutcomeKeeps s (dispatch s) := fun t h => by
  have f := dispatch_eq_next h
  exact .of_eq f.frame.pay f.frame.config f.img f.frame.scan f.frame.z f.frame.out

theorem stride_keeps (s : State) : OutcomeKeeps s (stride s) := fun _ h => by
  obtain ⟨v, rfl, -⟩ := stride_eq_next h
  exact .of_eq rfl rfl rfl rfl rfl rfl

theorem imgInit_keeps (s : State) : KeepsSpaces s (imgInit s) := ⟨rfl, rfl, fun _ => rfl, id, id, id⟩

theorem blkNext_keeps (s : State) : KeepsSpaces s (blkNext s) := by
  rcases blkNext_cases s with ⟨r, c, he⟩ | he
  all_goals
    rw [he]
    exact .of_eq rfl rfl rfl rfl rfl rfl

theorem processBlock_keeps (s : State) : OutcomeKeeps s (processBlock s) :=
  (blkFetch_keeps s).andThen fun u => by
    split
    · exact .next (.refl u)
    · exact (dispatch_keeps u).andThen pixStore_keeps

theorem blockLoop_keeps : ∀ (n : Nat) (s : State), OutcomeKeeps s (blockLoop n s)
  | 0, s => .next (.refl s)
  | n + 1, s => (processBlock_keeps s).andThen fun u => .after (blkNext_keeps u) (blockLoop_keeps n _)

theorem prepareDecimg_keeps (s : State) : OutcomeKeeps s (prepareDecimg s) :=
  .after (u := grid s) (.of_eq rfl rfl rfl rfl rfl rfl) <|
    (stride_keeps (grid s)).andThen fun u => .next ((imgInit_keeps u).trans (.of_eq rfl rfl rfl rfl rfl rfl))

theorem execValidate_keeps (s : State) : OutcomeKeeps s (execValidate s) := by
  unfold execValidate
  split
  · exact .next (.of_eq rfl rfl rfl rfl rfl rfl)
  · exact .next (.refl s)

theorem presentDecimg_keeps (f : FormatCode) (w h : Half) (plen : Nat) (s : State) :
    KeepsSpaces s (presentDecimg f w h plen s) := .of_eq rfl rfl rfl rfl rfl rfl

theorem runDecimg_keeps (s : State) : OutcomeKeeps s (runDecimg s) := by
  unfold runDecimg
  split
  · exact .next (.of_eq rfl rfl rfl rfl rfl rfl)
  · exact (prepareDecimg_keeps s).andThen fun u => blockLoop_keeps _ u

/-! ### The operations of `ENCFILE` -/

theorem chunk_keeps (tag : Tag) (data : List Byte) (s : State) : OutcomeKeeps s (chunk tag data s) := fun _ h => by
  obtain ⟨d, c, m, rfl, hm⟩ := chunk_eq_next h
  exact ⟨rfl, rfl, id, id, id, fun hw => (hm hw).1⟩

theorem enterPhase_keeps (p : Phase) (s : State) : KeepsSpaces s (enterPhase p s) := .of_eq rfl rfl rfl rfl rfl rfl

theorem ihdr_keeps (s : State) : OutcomeKeeps s (ihdr s) :=
  .after (enterPhase_keeps .ihdr s) (chunk_keeps _ _ _)

theorem idat_keeps (s : State) : OutcomeKeeps s (idat s) :=
  .after (enterPhase_keeps .idat s) (chunk_keeps _ _ _)

theorem iend_keeps (s : State) : OutcomeKeeps s (iend s) :=
  .after (enterPhase_keeps .iend s) (chunk_keeps _ _ _)

theorem encValidate_keeps (s : State) : OutcomeKeeps s (encValidate s) := by
  rcases encValidate_cases s with ⟨-, he⟩ | ⟨-, -, he⟩ | ⟨-, -, -, he⟩ <;> rw [he]
  · exact .next (.of_eq rfl rfl rfl rfl rfl rfl)
  · exact fun _ h => nomatch h
  · exact .next (.refl s)

theorem sig_keeps (s : State) : KeepsSpaces s (sig s) :=
  ⟨rfl, rfl, id, id, id, fun hw => Memory.wf_append hw signature⟩

theorem scan_keeps (s : State) : OutcomeKeeps s (scan s) := fun _ h => by
  obtain ⟨v, m, rfl, hm⟩ := scan_eq_next h
  exact ⟨rfl, rfl, id, fun _ => hm, id, id⟩

theorem compress_keeps (s : State) : KeepsSpaces s (compress s) :=
  ⟨rfl, rfl, id, id, fun _ => Memory.wf_ofBytes _, id⟩

theorem encodePhases_keeps (s : State) : OutcomeKeeps s (encodePhases s) :=
  .after (sig_keeps s) <|
    (ihdr_keeps _).andThen fun a =>
    (scan_keeps a).andThen fun b =>
    .after (compress_keeps b) <|
    (idat_keeps _).andThen fun c =>
    (iend_keeps c).andThen fun _ => .next (.of_eq rfl rfl rfl rfl rfl rfl)

theorem presentEncfile_keeps (w h : Half) (blen : Nat) (s : State) : KeepsSpaces s (presentEncfile w h blen s) :=
  .of_eq rfl rfl rfl rfl rfl rfl

theorem runEncfile_keeps (s : State) : OutcomeKeeps s (runEncfile s) :=
  .after (u := beginEncfile s) ⟨rfl, rfl, id, id, id, fun _ => rfl⟩ <|
    (encValidate_keeps (beginEncfile s)).andThen fun u => by
      split
      · exact .next (.refl u)
      · exact encodePhases_keeps u

theorem execConvert_keeps (f : FormatCode) (w h : Half) (plen : Nat) (s : State) :
    OutcomeKeeps s (execConvert f w h plen s) :=
  .after (u := { presentDecimg f w h plen s with out := Memory.empty }) ⟨rfl, rfl, id, id, id, fun _ => rfl⟩ <|
    (runDecimg_keeps _).andThen fun u => by
      split
      · exact .after (presentEncfile_keeps w h u.img.size u) (runEncfile_keeps _)
      · exact .next (.refl u)

/-! ### The block decoders and the checksum write registers only -/

theorem loadColor_keeps (c0 c1 : Half) (idx : Word) (s : State) : KeepsSpaces s (loadColor c0 c1 idx s) :=
  .of_eq rfl rfl rfl rfl rfl rfl

theorem loadAlpha_keeps (a0 a1 : Byte) (abits : BitVec 48) (s : State) : KeepsSpaces s (loadAlpha a0 a1 abits s) :=
  .of_eq rfl rfl rfl rfl rfl rfl

theorem cmp16_keeps (s : State) : KeepsSpaces s (cmp16 s) := .of_eq rfl rfl rfl rfl rfl rfl

theorem cmp8_keeps (s : State) : KeepsSpaces s (cmp8 s) := .of_eq rfl rfl rfl rfl rfl rfl

theorem palBase_keeps (s : State) : KeepsSpaces s (palBase s) := .of_eq rfl rfl rfl rfl rfl rfl

theorem pal4_keeps (s : State) : KeepsSpaces s (pal4 s) := .of_eq rfl rfl rfl rfl rfl rfl

theorem pal3t_keeps (s : State) : KeepsSpaces s (pal3t s) := .of_eq rfl rfl rfl rfl rfl rfl

theorem bc3Color_keeps (s : State) : KeepsSpaces s (bc3Color s) := (palBase_keeps s).trans (pal4_keeps _)

theorem aramp8_keeps (s : State) : KeepsSpaces s (aramp8 s) := .of_eq rfl rfl rfl rfl rfl rfl

theorem aramp6_keeps (s : State) : KeepsSpaces s (aramp6 s) := .of_eq rfl rfl rfl rfl rfl rfl

theorem patch_keeps (patch : Vector Pixel 16) (s : State) : KeepsSpaces s { s with patch := patch } :=
  .of_eq rfl rfl rfl rfl rfl rfl

theorem bc1Pixels_keeps (s : State) : KeepsSpaces s (bc1Pixels s) := patch_keeps _ s

theorem bc3Pixels_keeps (s : State) : KeepsSpaces s (bc3Pixels s) := patch_keeps _ s

theorem answer_keeps (r : Result) (s : State) : KeepsSpaces s (answer r s) := .of_eq rfl rfl rfl rfl rfl rfl

theorem execBc1DecPal4_keeps (c0 c1 : Half) (idx : Word) (s : State) :
    OutcomeKeeps s (execBc1DecPal4 c0 c1 idx s) :=
  .next <| (loadColor_keeps c0 c1 idx s).trans <| (palBase_keeps _).trans <| (cmp16_keeps _).trans <|
    (pal4_keeps _).trans (bc1Pixels_keeps _)

theorem execBc1DecPal3t_keeps (c0 c1 : Half) (idx : Word) (s : State) :
    OutcomeKeeps s (execBc1DecPal3t c0 c1 idx s) :=
  .next <| (loadColor_keeps c0 c1 idx s).trans <| (palBase_keeps _).trans <| (cmp16_keeps _).trans <|
    (pal3t_keeps _).trans (bc1Pixels_keeps _)

theorem execBc3DecAramp8_keeps (a0 a1 : Byte) (abits : BitVec 48) (c0 c1 : Half) (idx : Word) (s : State) :
    OutcomeKeeps s (execBc3DecAramp8 a0 a1 abits c0 c1 idx s) :=
  .next <| (loadAlpha_keeps a0 a1 abits s).trans <| (loadColor_keeps c0 c1 idx _).trans <| (cmp8_keeps _).trans <|
    (aramp8_keeps _).trans <| (bc3Color_keeps _).trans (bc3Pixels_keeps _)

theorem execBc3DecAramp6_keeps (a0 a1 : Byte) (abits : BitVec 48) (c0 c1 : Half) (idx : Word) (s : State) :
    OutcomeKeeps s (execBc3DecAramp6 a0 a1 abits c0 c1 idx s) :=
  .next <| (loadAlpha_keeps a0 a1 abits s).trans <| (loadColor_keeps c0 c1 idx _).trans <| (cmp8_keeps _).trans <|
    (aramp6_keeps _).trans <| (bc3Color_keeps _).trans (bc3Pixels_keeps _)

theorem execCrc32_keeps (bs : List Byte) (s : State) : OutcomeKeeps s (execCrc32 bs s) :=
  have hcrc : KeepsSpaces s (crcUpdAll bs (crcInit s)) := .of_eq rfl rfl rfl rfl rfl rfl
  .next (hcrc.trans (answer_keeps _ _))

/-! ### Every operation and every step -/

/-- No operation writes `PAY` or the configuration, and each keeps the canonical form. The operations not named write
registers in a single update. -/
theorem exec_keeps (i : Instr) (s : State) : OutcomeKeeps s (exec i s) := by
  cases i with
  | decimgBc1 w h plen => exact .after (presentDecimg_keeps .bc1 w h plen s) (runDecimg_keeps _)
  | decimgBc3 w h plen => exact .after (presentDecimg_keeps .bc3 w h plen s) (runDecimg_keeps _)
  | decimgOther f w h plen => exact .after (presentDecimg_keeps f w h plen s) (runDecimg_keeps _)
  | encfile w h blen => exact .after (presentEncfile_keeps w h blen s) (runEncfile_keeps _)
  | convert f w h plen => exact execConvert_keeps f w h plen s
  | validate => exact execValidate_keeps s
  | stride => exact stride_keeps s
  | imgInit => exact .next (imgInit_keeps s)
  | blkNext => exact .next (blkNext_keeps s)
  | blkFetch => exact blkFetch_keeps s
  | dispatch => exact dispatch_keeps s
  | pixStore => exact pixStore_keeps s
  | bc1DecPal4 c0 c1 idx => exact execBc1DecPal4_keeps c0 c1 idx s
  | bc1DecPal3t c0 c1 idx => exact execBc1DecPal3t_keeps c0 c1 idx s
  | bc3DecAramp8 a0 a1 abits c0 c1 idx => exact execBc3DecAramp8_keeps a0 a1 abits c0 c1 idx s
  | bc3DecAramp6 a0 a1 abits c0 c1 idx => exact execBc3DecAramp6_keeps a0 a1 abits c0 c1 idx s
  | bc3Color => exact .next (bc3Color_keeps s)
  | crc32 bs => exact execCrc32_keeps bs s
  | chunk tag data => exact chunk_keeps tag data s
  | encValidate => exact encValidate_keeps s
  | sig => exact .next (sig_keeps s)
  | ihdr => exact ihdr_keeps s
  | scan => exact scan_keeps s
  | compress => exact .next (compress_keeps s)
  | idat => exact idat_keeps s
  | iend => exact iend_keeps s
  | _ =>
    intro t h
    cases h
    exact .of_eq rfl rfl rfl rfl rfl rfl

theorem successor_keeps (i : Instr) (t : State) : KeepsSpaces t (successor i t) := by
  cases i with
  | blkFetch =>
    show KeepsSpaces t (if t.blk = none then goTo (.op .blkNext) t else goTo .block t)
    split
    · exact .of_eq rfl rfl rfl rfl rfl rfl
    · exact .of_eq rfl rfl rfl rfl rfl rfl
  | _ => exact .of_eq rfl rfl rfl rfl rfl rfl

theorem advance_keeps (p : Position) (i : Instr) (t : State) : KeepsSpaces t (advance p i t) := by
  cases p with
  | idle => exact .refl t
  | command => exact .of_eq rfl rfl rfl rfl rfl rfl
  | block => exact .of_eq rfl rfl rfl rfl rfl rfl
  | op j =>
    show KeepsSpaces t (if t.pos = .idle then t else successor i t)
    split
    · exact .refl t
    · exact successor_keeps i t

theorem step_keeps (s : State) : OutcomeKeeps s (step s) := fun t h => by
  rcases step_cases h with ⟨-, rfl⟩ | ⟨i, u, -, hu, rfl⟩
  · exact .refl t
  · exact (exec_keeps i s u hu).trans (advance_keeps s.pos i u)

/-- Settles O55: `KeepsSpaces` is kept operation by operation, and it carries the canonical form. -/
theorem everyStepKeepsCanonicalMemory : Obligations.EveryStepKeepsCanonicalMemory := by
  unfold Obligations.EveryStepKeepsCanonicalMemory
  intro s t hs h
  exact (step_keeps s t h).canonical hs

/-- Settles O56, from the same account of the operations as O55. -/
theorem engineNeverWritesPayloadOrConfiguration : Obligations.EngineNeverWritesPayloadOrConfiguration := by
  unfold Obligations.EngineNeverWritesPayloadOrConfiguration
  intro s t h
  have k := step_keeps s t h
  exact ⟨k.pay, k.config⟩

end Sys2Proof.Machine
end

-- ==== Proofs: the stores of two blocks (20_memory.md R62, 70_reset_and_hazards.md R261) ====
section
/-! The bytes that `PIXSTORE` writes, and that two blocks have none of them in common. -/

namespace Sys2Proof.Machine

/-- The byte at `a` of an image of width `w` lies in the 4 by 4 square of the block at row `r`, column `c`. -/
abbrev InSquare (w : Nat) (r c : BitVec 15) (a : Nat) : Prop := a / 4 % w / 4 = c.toNat ∧ a / 4 / w / 4 = r.toNat

/-- The byte of a patch that belongs at `a` in an image of width `w`. -/
def patchByte (patch : Vector Pixel 16) (w a : Nat) : Byte :=
  (patch.get (Fin.ofNat 16 (a / 4 / w % 4 * 4 + a / 4 % w % 4))).bytes.getD (a % 4) 0

/-- A byte lies in one square only. -/
theorem InSquare.unique {w a : Nat} {r c r' c' : BitVec 15} (h : InSquare w r c a) (h' : InSquare w r' c' a) :
    (r, c) = (r', c') := by
  obtain ⟨hc, hr⟩ := h
  obtain ⟨hc', hr'⟩ := h'
  rw [BitVec.eq_of_toNat_eq (hr.symm.trans hr'), BitVec.eq_of_toNat_eq (hc.symm.trans hc')]

/-- `PIXSTORE` on an image of the right size, byte by byte: its square holds the patch, the rest stays. -/
theorem pixStore_reads {s t : State} (hwf : s.img.wf = true) (hsz : s.img.size = s.w.toNat * s.h.toNat * 4)
    (h : pixStore s = .next t) :
    ∃ m, t = { s with img := m } ∧ m.wf = true ∧ m.size = s.img.size ∧
      ∀ a, m.read a =
        if a < s.img.size ∧ InSquare s.w.toNat s.br s.bc a then patchByte s.patch s.w.toNat a else s.img.read a := by
  obtain ⟨m, hm, hmwf, hmsz, hread⟩ := storePixels_spec (patch := s.patch) (br := s.br.toNat) (bc := s.bc.toNat)
    (List.finRange 16) s.img hwf hsz
  unfold pixStore at h
  rw [hm] at h
  cases h
  refine ⟨m, rfl, hmwf, hmsz, fun a => ?_⟩
  simpa only [InSquare, patchByte, List.mem_finRange, and_true] using hread a

/-- Settles O35: each byte of `IMG` is written by at most one of the two blocks. -/
theorem blockStoresCommute : Obligations.BlockStoresCommute := by
  unfold Obligations.BlockStoresCommute
  intro s t1 t2 u1 u2 q r c hwf hsz hne ht1 ht2 hu1 hu2
  obtain ⟨m1, rfl, hm1wf, hm1sz, hm1⟩ := pixStore_reads hwf hsz ht1
  obtain ⟨m2, rfl, hm2wf, hm2sz, hm2⟩ := pixStore_reads hm1wf (hm1sz.trans hsz) ht2
  obtain ⟨n1, rfl, hn1wf, hn1sz, hn1⟩ :=
    pixStore_reads (s := { s with patch := q, br := r, bc := c }) hwf hsz hu1
  obtain ⟨n2, rfl, hn2wf, hn2sz, hn2⟩ := pixStore_reads hn1wf (hn1sz.trans hsz) hu2
  refine Memory.ext_of_read hm2wf hn2wf ((hm2sz.trans hm1sz).trans (hn2sz.trans hn1sz).symm) fun a => ?_
  have hforth : m2.read a =
      if a < m1.size ∧ InSquare s.w.toNat r c a then patchByte q s.w.toNat a else m1.read a := hm2 a
  have hback : n2.read a =
      if a < n1.size ∧ InSquare s.w.toNat s.br s.bc a then patchByte s.patch s.w.toNat a else n1.read a := hn2 a
  have hfirst : n1.read a =
      if a < s.img.size ∧ InSquare s.w.toNat r c a then patchByte q s.w.toNat a else s.img.read a := hn1 a
  have hsize : n1.size = s.img.size := hn1sz
  show m2.read a = n2.read a
  rw [hforth, hback, hm1 a, hfirst, hm1sz, hsize]
  by_cases hq : a < s.img.size ∧ InSquare s.w.toNat r c a
  · have hp : ¬ (a < s.img.size ∧ InSquare s.w.toNat s.br s.bc a) := fun hp => hne (hq.2.unique hp.2)
    rw [if_pos hq, if_neg hp, if_pos hq]
  · rw [if_neg hq, if_neg hq]

end Sys2Proof.Machine
end

-- ==== Proofs: commands make no access outside their spaces (20_memory.md R60) ====
section
/-! Which operations can fault at all, and that the host's duties rule each of those faults out. -/

namespace Sys2Proof.Machine

/-! ### Outcomes without a fault -/

theorem FaultFree.next (s : State) : FaultFree (.next s) := fun _ h => nomatch h

theorem FaultFree.refused (r : Refusal) : FaultFree (.refused r) := fun _ h => nomatch h

theorem FaultFree.andThen {o : Host.Outcome State Fault Refusal} {f : State → Host.Outcome State Fault Refusal}
    (ho : FaultFree o) (hf : ∀ u, o = .next u → FaultFree (f u)) : FaultFree (andThen o f) := fun r h => by
  rcases andThen_eq_fault.mp h with h | ⟨u, hu, h⟩
  · exact ho r h
  · exact hf u hu r h

/-! ### `DECIMG` -/

theorem execValidate_faultFree (s : State) : FaultFree (execValidate s) := by
  unfold execValidate
  split
  · exact .next _
  · exact .next s

theorem stride_faultFree (s : State) : FaultFree (stride s) := by
  unfold stride
  split
  · exact .next _
  · exact .next _
  · exact .refused _

/-- With the payload present every block that ends within `PLEN` is there (70_reset_and_hazards.md R252). -/
theorem blkFetch_faultFree {s : State} (hp : s.PayloadPresent) : FaultFree (blkFetch s) := by
  rcases blkFetch_cases s with ⟨-, he⟩ | ⟨-, -, he⟩ | ⟨hle, hlt, -⟩
  · rw [he]
    exact .next _
  · rw [he]
    exact .next _
  · have hp : s.plen ≤ s.pay.size := hp
    omega

theorem dispatch_faultFree (s : State) : FaultFree (dispatch s) := by
  unfold dispatch
  split
  · exact .next s
  · split
    · split
      · exact .next _
      · exact .refused _
    · split
      · exact .next _
      · exact .refused _
    · exact .refused _

theorem pixStore_faultFree {s : State} (hs : s.img.size = s.w.toNat * s.h.toNat * 4) : FaultFree (pixStore s) := by
  obtain ⟨m, hm, -⟩ := storePixels_isSome (patch := s.patch) (br := s.br.toNat) (bc := s.bc.toNat)
    (List.finRange 16) s.img hs
  unfold pixStore
  rw [hm]
  exact .next _

theorem runDecimg_faultFree {s : State} (hp : s.PayloadPresent) : FaultFree (runDecimg s) := by
  cases he : validateError s.config.errOrder s.fmt s.w s.h with
  | some e =>
    unfold runDecimg
    rw [he]
    exact .next _
  | none =>
    obtain ⟨-, t, ht, -⟩ := runDecimg_spec (validateError_eq_none.mp he) hp
    rw [ht]
    exact .next t

/-! ### `ENCFILE` -/

theorem chunk_faultFree (tag : Tag) (data : List Byte) (s : State) : FaultFree (chunk tag data s) := by
  unfold chunk
  split
  · exact .next _
  · exact .refused _

theorem ihdr_faultFree (s : State) : FaultFree (ihdr s) := chunk_faultFree _ _ _

theorem idat_faultFree (s : State) : FaultFree (idat s) := chunk_faultFree _ _ _

theorem iend_faultFree (s : State) : FaultFree (iend s) := chunk_faultFree _ _ _

theorem encValidate_faultFree (s : State) : FaultFree (encValidate s) := by
  rcases encValidate_cases s with ⟨-, he⟩ | ⟨-, -, he⟩ | ⟨-, -, -, he⟩ <;> rw [he]
  · exact .next _
  · exact .refused _
  · exact .next s

/-- `SCAN` finds every row of a buffer of `W*H*4` bytes (70_reset_and_hazards.md R253). -/
theorem scan_faultFree {s : State} (hs : s.img.size = s.w.toNat * s.h.toNat * 4) : FaultFree (scan s) := by
  have hrows : (0 + s.h.toNat) * (s.w.toNat * 4) ≤ s.img.size := by
    rw [hs, Nat.zero_add, ← Nat.mul_assoc, Nat.mul_comm s.h.toNat]
  obtain ⟨m, he, -⟩ := scanRows_spec s.h.toNat 0 { enterPhase .scan s with scan := Memory.empty } rfl hrows
  unfold scan
  rw [he]
  exact .next _

theorem encodePhases_faultFree {s : State} (hs : s.img.size = s.w.toNat * s.h.toNat * 4) :
    FaultFree (encodePhases s) :=
  (ihdr_faultFree _).andThen fun a ha =>
    have f : PhaseFrame (sig s) a := chunk_phaseFrame ha
    have hsized : a.img.size = a.w.toNat * a.h.toNat * 4 := by rw [f.img, f.w, f.h]; exact hs
    (scan_faultFree hsized).andThen fun _ _ =>
    (idat_faultFree _).andThen fun _ _ =>
    (iend_faultFree _).andThen fun _ _ => .next _

theorem runEncfile_faultFree {s : State} (hb : s.BufferPresent) : FaultFree (runEncfile s) := by
  rw [runEncfile_eq]
  split
  · exact .next _
  · next hlen =>
    split
    · exact .refused _
    · exact encodePhases_faultFree (s := beginEncfile s) (hb.symm.trans (not_not.mp hlen))

/-- `CONVERT` counts the bytes of `IMG` itself, so that only the payload is the host's duty. -/
theorem execConvert_faultFree {f : FormatCode} {w h : Half} {plen : Nat} {s : State} (hp : plen ≤ s.pay.size) :
    FaultFree (execConvert f w h plen s) :=
  (runDecimg_faultFree (s := { presentDecimg f w h plen s with out := Memory.empty }) hp).andThen fun u _ => by
    split
    · exact runEncfile_faultFree (s := presentEncfile w h u.img.size u) rfl
    · exact .next u

/-! ### The step -/

/-- Where an operation is next whose accesses `Coherent` covers, it does not fault. The operations that are not named
answer a next state. -/
theorem exec_op_faultFree {s : State} {i : Instr} (hp : s.pos = .op i) (hs : s.Coherent) : FaultFree (exec i s) := by
  unfold State.Coherent at hs
  rw [hp] at hs
  cases i with
  | decimgBc1 w h plen => exact runDecimg_faultFree (s := presentDecimg .bc1 w h plen s) hs
  | decimgBc3 w h plen => exact runDecimg_faultFree (s := presentDecimg .bc3 w h plen s) hs
  | decimgOther f w h plen => exact runDecimg_faultFree (s := presentDecimg f w h plen s) hs
  | encfile w h blen => exact runEncfile_faultFree (s := presentEncfile w h blen s) hs
  | convert f w h plen => exact execConvert_faultFree hs
  | validate => exact execValidate_faultFree s
  | stride => exact stride_faultFree s
  | blkFetch => exact blkFetch_faultFree (State.InLoop.payload hs)
  | dispatch => exact dispatch_faultFree s
  | pixStore => exact pixStore_faultFree (State.InLoop.sized hs)
  | chunk tag data => exact chunk_faultFree tag data s
  | encValidate => exact encValidate_faultFree s
  | ihdr => exact ihdr_faultFree s
  | scan =>
    have ⟨_, _, hlen, hbuf⟩ : s.InEncode := hs
    exact scan_faultFree (hbuf.symm.trans hlen)
  | idat => exact idat_faultFree s
  | iend => exact iend_faultFree s
  | _ => exact .next _

/-- A started `DECIMG` runs on the operands in their registers. -/
theorem exec_decodeCommand_decimg {s : State} (h : s.op = .decimg) : exec (decodeCommand s.record) s = runDecimg s := by
  have hself : presentDecimg s.fmt s.w s.h s.plen s = s := by rw [presentDecimg, ← h]
  have hexec : exec (decodeCommand s.record) s = runDecimg (presentDecimg s.fmt s.w s.h s.plen s) := by
    simp only [decodeCommand, State.record, h]
    cases s.fmt with
    | bc1 => rfl
    | bc3 => rfl
    | other n => rfl
  rw [hexec, hself]

/-- A started `ENCFILE` runs on the operands in their registers. -/
theorem exec_decodeCommand_encfile {s : State} (h : s.op = .encfile) :
    exec (decodeCommand s.record) s = runEncfile s := by
  have hself : presentEncfile s.w s.h s.blen s = s := by rw [presentEncfile, ← h]
  have hexec : exec (decodeCommand s.record) s = runEncfile (presentEncfile s.w s.h s.blen s) := by
    simp only [decodeCommand, State.record, h]
    rfl
  rw [hexec, hself]

/-- A command started with the payload or the buffer present. -/
theorem exec_command_faultFree {s : State} (hp : s.pos = .command) (hs : s.Coherent) :
    FaultFree (exec (decodeCommand s.record) s) := by
  unfold State.Coherent at hs
  rw [hp] at hs
  cases hop : s.op with
  | decimg =>
    rw [exec_decodeCommand_decimg hop]
    rw [hop] at hs
    exact runDecimg_faultFree hs
  | encfile =>
    rw [exec_decodeCommand_encfile hop]
    rw [hop] at hs
    exact runEncfile_faultFree hs

/-- Settles O59: a step faults only where its operation does, and the operation is a coherent command, a fetched block
or an operation of the sequencer in a coherent state. -/
theorem coherentStepsDoNotFault : Obligations.CoherentStepsDoNotFault := by
  unfold Obligations.CoherentStepsDoNotFault
  intro s hs
  have hexec : ∀ i, fetch s = .instr i → FaultFree (exec i s) := fun i hf => by
    rcases fetch_cases hf with ⟨hp, rfl⟩ | ⟨-, bs, hb, hd⟩ | hp
    · exact exec_command_faultFree hp hs
    · rw [exec_decodedBlock hb hd]
      exact dispatch_faultFree s
    · exact exec_op_faultFree hp hs
  unfold step
  cases hf : fetch s with
  | nothing => exact .next s
  | bad e => exact .refused _
  | instr i => exact (hexec i hf).andThen fun _ _ => .next _

end Sys2Proof.Machine
end

-- ==== Proofs: one operation a step and the whole command (20_memory.md R59, 70_reset_and_hazards.md R267) ====
section
/-! The steps of the sequencer follow the composition that gives a command its meaning, operation by operation. -/

namespace Sys2Proof.Machine

/-! ### Runs -/

/-- Some number of steps from `s` ends as `o`. -/
def Runs (s : State) (o : Host.Outcome State Fault Refusal) : Prop := ∃ k, Host.Core.run core k s = o

theorem run_succ (k : Nat) (s : State) : Host.Core.run core (k + 1) s = andThen (step s) (Host.Core.run core k) := by
  have hcore : core.step s = step s := rfl
  simp only [Host.Core.run]
  rw [hcore]
  cases step s with
  | next t => rfl
  | fault r => rfl
  | refused r => rfl

theorem Runs.now (s : State) : Runs s (.next s) := ⟨0, rfl⟩

/-- A step that runs `o` and goes on as `g` says, followed by runs that do what `f` does after `o`, does `o` and `f`. -/
theorem Runs.andThen {s : State} {o : Host.Outcome State Fault Refusal} {g : State → State}
    {f : State → Host.Outcome State Fault Refusal} (hstep : step s = andThen o fun u => .next (g u))
    (hf : ∀ u, o = .next u → Runs (g u) (f u)) : Runs s (andThen o f) := by
  cases o with
  | next u =>
    obtain ⟨k, hk⟩ := hf u rfl
    exact ⟨k + 1, by rw [run_succ, hstep]; exact hk⟩
  | fault r => exact ⟨1, by rw [run_succ, hstep]; rfl⟩
  | refused r => exact ⟨1, by rw [run_succ, hstep]; rfl⟩

theorem Runs.of_step {s t : State} {o : Host.Outcome State Fault Refusal} (hstep : step s = .next t) (h : Runs t o) :
    Runs s o := by
  obtain ⟨k, hk⟩ := h
  exact ⟨k + 1, by rw [run_succ, hstep]; exact hk⟩

theorem Runs.of_step_refused {s : State} {r : Refusal} (hstep : step s = .refused r) : Runs s (.refused r) :=
  ⟨1, by rw [run_succ, hstep]; rfl⟩

/-! ### Operations that do not read where the engine stands -/

/-- An operation does the same wherever the engine stands, and leaves it there. -/
def IgnoresPos (f : State → Host.Outcome State Fault Refusal) : Prop :=
  ∀ p s, f (goTo p s) = andThen (f s) fun u => .next (goTo p u)

theorem grid_ignoresPos : IgnoresPos (exec .grid) := fun _ _ => rfl

theorem stride_ignoresPos : IgnoresPos (exec .stride) := fun p s => by
  show stride (goTo p s) = andThen (stride s) fun u => .next (goTo p u)
  unfold stride
  rw [goTo_fmt]
  cases s.fmt with
  | bc1 => rfl
  | bc3 => rfl
  | other n => rfl

theorem imgInit_ignoresPos : IgnoresPos (exec .imgInit) := fun _ _ => rfl

theorem blkFetch_ignoresPos : IgnoresPos (exec .blkFetch) := fun p s => by
  show blkFetch (goTo p s) = andThen (blkFetch s) fun u => .next (goTo p u)
  have hidx : (goTo p s).blkIdx = s.blkIdx := rfl
  unfold blkFetch
  rw [goTo_plen, goTo_stride, goTo_pay, hidx]
  split
  · rfl
  · cases s.pay.readBytes (s.blkIdx * s.stride.toNat) s.stride.toNat with
    | none => rfl
    | some bs => rfl

theorem pixStore_ignoresPos : IgnoresPos (exec .pixStore) := fun p s => by
  show pixStore (goTo p s) = andThen (pixStore s) fun u => .next (goTo p u)
  unfold pixStore
  rw [goTo_patch, goTo_br, goTo_bc, goTo_w, goTo_h, goTo_img]
  cases storePixels s.patch s.br.toNat s.bc.toNat s.w.toNat s.h.toNat (List.finRange 16) s.img with
  | none => rfl
  | some m => rfl

theorem sig_ignoresPos : IgnoresPos (exec .sig) := fun _ _ => rfl

theorem chunk_ignoresPos (tag : Tag) (data : List Byte) : IgnoresPos (chunk tag data) := fun p s => by
  by_cases hl : s.ChunkFits data.length
  · have hl' : (goTo p s).ChunkFits data.length := hl
    rw [chunk_spec tag data s hl, chunk_spec tag data (goTo p s) hl', andThen_next]
    simp only [goTo]
  · have hl' : ¬ (goTo p s).ChunkFits data.length := hl
    rw [chunk_refused tag data s hl, chunk_refused tag data (goTo p s) hl']
    rfl

theorem ihdr_ignoresPos : IgnoresPos (exec .ihdr) := fun p s =>
  chunk_ignoresPos Tag.ihdr (headerData s.w s.h) p (enterPhase .ihdr s)

theorem idat_ignoresPos : IgnoresPos (exec .idat) := fun p s =>
  chunk_ignoresPos Tag.idat s.z.bytes p (enterPhase .idat s)

theorem iend_ignoresPos : IgnoresPos (exec .iend) := fun p s => chunk_ignoresPos Tag.iend [] p (enterPhase .iend s)

theorem scanRow_ignoresPos (r : Nat) : IgnoresPos (scanRow r) := fun p s => by
  unfold scanRow
  rw [goTo_img, goTo_w]
  cases s.img.readBytes (r * s.w.toNat * 4) (s.w.toNat * 4) with
  | none => rfl
  | some bs => rfl

theorem scanRows_ignoresPos : ∀ n r, IgnoresPos (scanRows n r)
  | 0, _ => fun _ _ => rfl
  | n + 1, r => fun p s => by
    unfold scanRows
    rw [scanRow_ignoresPos r p s, andThen_assoc, andThen_assoc]
    congr 1
    funext u
    exact scanRows_ignoresPos n (r + 1) p u

theorem scan_ignoresPos : IgnoresPos (exec .scan) := fun p s =>
  scanRows_ignoresPos s.h.toNat 0 p { enterPhase .scan s with scan := Memory.empty }

theorem compress_ignoresPos : IgnoresPos (exec .compress) := fun _ _ => rfl

theorem bc1Dec_goTo (b : BitVec 64) (p : Position) (s : State) : bc1Dec b (goTo p s) = goTo p (bc1Dec b s) := by
  have h := congrArg (goTo p) (bc1Dec_eq b s s)
  rw [bc1Dec_eq b (goTo p s) s, h]
  simp only [goTo]

theorem bc3Dec_goTo (b : BitVec 128) (p : Position) (s : State) : bc3Dec b (goTo p s) = goTo p (bc3Dec b s) := by
  have h := congrArg (goTo p) (bc3Dec_eq b s s rfl)
  rw [bc3Dec_eq b (goTo p s) s rfl, h]
  simp only [goTo]

/-- `DISPATCH` of a block of the format's length, wherever the engine stands. -/
theorem dispatch_goTo {s : State} {bs : List Byte} (hb : s.blk = some bs) (hf : s.fmt.unrecognised = false)
    (hl : bs.length = strideOf s.fmt) (p : Position) :
    dispatch (goTo p s) = andThen (dispatch s) fun u => .next (goTo p u) := by
  cases hfmt : s.fmt with
  | bc1 =>
    rw [hfmt] at hl
    rw [dispatch_bc1 (s := goTo p s) hfmt hb hl, dispatch_bc1 hfmt hb hl, bc1Dec_goTo]
    rfl
  | bc3 =>
    rw [hfmt] at hl
    rw [dispatch_bc3 (s := goTo p s) hfmt hb hl, dispatch_bc3 hfmt hb hl, bc3Dec_goTo]
    rfl
  | other n =>
    rw [hfmt] at hf
    cases hf

/-- A block of the format's length decodes (30_encoding.md R89). -/
theorem decodeBlock_ok {f : FormatCode} {bs : List Byte} (hf : f.unrecognised = false)
    (hl : bs.length = strideOf f) : ∃ i, decodeBlock f bs = .ok i := by
  cases f with
  | bc1 => exact ⟨_, if_pos hl⟩
  | bc3 => exact ⟨_, if_pos hl⟩
  | other n => cases hf

/-! ### Steps and the runs after them -/

/-- The step at an operation. -/
theorem step_goTo_op (i : Instr) (s : State) :
    step (goTo (.op i) s) = andThen (exec i (goTo (.op i) s)) fun t => .next (advance (.op i) i t) := rfl

/-- The step at an operation that does not end its command. -/
theorem step_op {i : Instr} (hi : IgnoresPos (exec i)) {g : State → State}
    (hg : ∀ u, successor i (goTo (.op i) u) = g u) (s : State) :
    step (goTo (.op i) s) = andThen (exec i s) fun u => .next (g u) := by
  have hadv : ∀ u, advance (.op i) i (goTo (.op i) u) = g u := hg
  rw [step_goTo_op, hi, andThen_assoc]
  simp only [andThen_next, hadv]

theorem runs_op {i : Instr} (hi : IgnoresPos (exec i)) {g : State → State}
    (hg : ∀ u, successor i (goTo (.op i) u) = g u) {s : State} {f : State → Host.Outcome State Fault Refusal}
    (hf : ∀ u, exec i s = .next u → Runs (g u) (f u)) : Runs (goTo (.op i) s) (andThen (exec i s) f) :=
  .andThen (step_op hi hg s) hf

/-- The step at a fetched block of its format's length. -/
theorem step_block {s : State} {bs : List Byte} (hb : s.blk = some bs) (hf : s.fmt.unrecognised = false)
    (hl : bs.length = strideOf s.fmt) :
    step (goTo .block s) = andThen (dispatch s) fun u => .next (goTo (.op .pixStore) u) := by
  obtain ⟨i, hi⟩ := decodeBlock_ok hf hl
  have hfetch : fetch (goTo .block s) = .instr i := by
    simp only [fetch, goTo_pos, goTo_blk, goTo_fmt, hb, hi, fetchedOf]
  have hexec : exec i (goTo .block s) = dispatch (goTo .block s) := exec_decodedBlock hb hi
  rw [step, hfetch]
  show andThen (exec i (goTo .block s)) _ = _
  rw [hexec, dispatch_goTo hb hf hl, andThen_assoc]
  rfl

/-! ### The block loop -/

/-- In the loop with `n` blocks to go, this one included. The host's duties are no part of it: a fetch beyond `PAY` or a
store beyond `IMG` ends both runs. -/
structure BlocksLeft (n : Nat) (s : State) : Prop where
  recognised : s.fmt.unrecognised = false
  strided : s.stride.toNat = strideOf s.fmt
  row : s.br.toNat < s.bpcol.toNat
  col : s.bc.toNat < s.bprow.toNat
  left : s.blkIdx + n = s.bprow.toNat * s.bpcol.toNat

theorem BlocksLeft.of_loopFrame {n : Nat} {s t : State} (hs : BlocksLeft n s) (f : LoopFrame s t) (hr : t.br = s.br)
    (hc : t.bc = s.bc) : BlocksLeft n t where
  recognised := by rw [f.fmt]; exact hs.recognised
  strided := by rw [f.stride, f.fmt]; exact hs.strided
  row := by rw [hr, f.bpcol]; exact hs.row
  col := by rw [hc, f.bprow]; exact hs.col
  left := by rw [State.blkIdx, hr, hc, f.bprow, f.bpcol]; exact hs.left

/-- Inside the grid the index is below the number of blocks. -/
theorem BlocksLeft.blkIdx_lt {n : Nat} {s : State} (hs : BlocksLeft n s) :
    s.blkIdx < s.bprow.toNat * s.bpcol.toNat :=
  calc s.blkIdx < (s.br.toNat + 1) * s.bprow.toNat := by
        have hcol := hs.col
        rw [State.blkIdx, Nat.succ_mul]
        omega
    _ ≤ s.bpcol.toNat * s.bprow.toNat := Nat.mul_le_mul_right _ hs.row
    _ = s.bprow.toNat * s.bpcol.toNat := Nat.mul_comm _ _

/-- `BLK` is at the last block of its row, and its row is the last. -/
abbrev AtLastBlock (s : State) : Prop := ¬ s.bc.toNat + 1 < s.bprow.toNat ∧ ¬ s.br.toNat + 1 < s.bpcol.toNat

theorem blkNext_of_last {s : State} (h : AtLastBlock s) : blkNext s = completeDecimg s := by
  rw [blkNext, if_neg h.1, if_neg h.2]

/-- Before the last block `BLKNEXT` moves on, wherever the engine stands. -/
theorem blkNext_goTo {s : State} (h : ¬ AtLastBlock s) (p : Position) : blkNext (goTo p s) = goTo p (blkNext s) := by
  unfold blkNext
  rw [goTo_bc, goTo_br, goTo_bprow, goTo_bpcol]
  split
  · rfl
  · next hc =>
    split
    · rfl
    · next hr => exact absurd ⟨hc, hr⟩ h

/-- The last block of the grid has the last index. -/
theorem blkIdx_of_last {s : State} (hc : s.bc.toNat < s.bprow.toNat) (hr : s.br.toNat < s.bpcol.toNat)
    (h : AtLastBlock s) : s.blkIdx + 1 = s.bprow.toNat * s.bpcol.toNat := by
  obtain ⟨hlc, hlr⟩ := h
  have hcol : s.bc.toNat + 1 = s.bprow.toNat := by omega
  have hrow : s.br.toNat + 1 = s.bpcol.toNat := by omega
  rw [State.blkIdx, Nat.add_assoc, hcol, ← hrow]
  ring

/-- `BLKNEXT` moves to the next block, if the loop goes on from there as `ih` says, or completes the command. -/
theorem runs_blkNext {n : Nat} {s : State} (hs : BlocksLeft (n + 1) s)
    (ih : ∀ t, BlocksLeft n t → Runs (goTo (.op .blkFetch) t) (blockLoop n t)) :
    Runs (goTo (.op .blkNext) s) (blockLoop n (blkNext s)) := by
  have hleft := hs.left
  have hstep : step (goTo (.op .blkNext) s) =
      .next (advance (.op .blkNext) .blkNext (blkNext (goTo (.op .blkNext) s))) := step_goTo_op .blkNext s
  rcases blkNext_spec hs.col hs.row with ⟨hlt, r, c, he, hrc, hc, hr⟩ | ⟨hlast, hr, hc, he⟩
  · have hmoves : ¬ AtLastBlock s := fun h => hlt.ne (blkIdx_of_last hs.col hs.row h)
    rw [blkNext_goTo hmoves, he] at hstep
    rw [he]
    have hcount : r.toNat * s.bprow.toNat + c.toNat + n = s.bprow.toNat * s.bpcol.toNat := by omega
    have hmoved : BlocksLeft n { s with br := r, bc := c } := ⟨hs.recognised, hs.strided, hr, hc, hcount⟩
    exact .of_step hstep (ih _ hmoved)
  · have hl : AtLastBlock s := ⟨by omega, by omega⟩
    have hn : n = 0 := by omega
    subst hn
    rw [blkNext_of_last (s := goTo (.op .blkNext) s) hl] at hstep
    rw [he]
    exact .of_step hstep (.now _)

/-- The loop one operation a step, from a fetch on (43_assembler.md R168). -/
theorem runs_blockLoop : ∀ (n : Nat) (s : State), BlocksLeft n s → Runs (goTo (.op .blkFetch) s) (blockLoop n s)
  | 0, s, hs => absurd hs.left hs.blkIdx_lt.ne
  | n + 1, s, hs => by
    have hnext : ∀ t, LoopFrame s t → t.br = s.br → t.bc = s.bc →
        Runs (goTo (.op .blkNext) t) (blockLoop n (blkNext t)) :=
      fun t f hr hc => runs_blkNext (hs.of_loopFrame f hr hc) (runs_blockLoop n)
    rw [blockLoop_succ, processBlock, andThen_assoc]
    refine runs_op blkFetch_ignoresPos (g := fun u => if u.blk = none then goTo (.op .blkNext) u else goTo .block u)
      (fun _ => rfl) fun u hu => ?_
    obtain ⟨b, rfl, hlen⟩ := blkFetch_eq_next hu
    have hfetched : LoopFrame s { s with blk := b } := LoopFrame.update s s.status s.br s.bc s.img s.pos b
    cases b with
    | none => exact hnext _ hfetched rfl rfl
    | some bs =>
      have hl : bs.length = strideOf s.fmt := (hlen bs rfl).trans hs.strided
      show Runs (goTo .block { s with blk := some bs })
        (andThen (andThen (dispatch { s with blk := some bs }) pixStore) fun t => blockLoop n (blkNext t))
      rw [andThen_assoc]
      refine .andThen (step_block (s := { s with blk := some bs }) rfl hs.recognised hl) fun v hv => ?_
      have hdec := dispatch_eq_next hv
      refine runs_op pixStore_ignoresPos (g := goTo (.op .blkNext)) (fun _ => rfl) fun t ht => ?_
      obtain ⟨m, rfl⟩ := pixStore_eq_next ht
      exact hnext _ ((hfetched.trans hdec.frame).trans (LoopFrame.update v v.status v.br v.bc m v.pos v.blk))
        hdec.br hdec.bc

/-! ### The two commands -/

theorem execValidate_of_error {s : State} {e : Status}
    (h : validateError s.config.errOrder s.fmt s.w s.h = some e) : execValidate s = .next (raise e s) := by
  rw [execValidate, h]

theorem execValidate_of_valid {s : State} (h : validateError s.config.errOrder s.fmt s.w s.h = none) :
    execValidate s = .next s := by
  rw [execValidate, h]

/-- `BLK <- (0, 0)` leaves every block of the grid to go. -/
theorem blocksLeft_startBlocks {s : State} (hf : s.fmt.unrecognised = false) (hst : s.stride.toNat = strideOf s.fmt)
    (hrow : 0 < s.bpcol.toNat) (hcol : 0 < s.bprow.toNat) :
    BlocksLeft (s.bprow.toNat * s.bpcol.toNat) (startBlocks s) := by
  have hidx : (startBlocks s).blkIdx = 0 := Nat.zero_mul _
  exact ⟨hf, hst, hrow, hcol, by rw [hidx, Nat.zero_add, startBlocks_bprow, startBlocks_bpcol]⟩

/-- A validated `DECIMG` one operation a step, from `GRID` on. -/
theorem runs_prepared {s : State} (hv : s.Validated) :
    Runs (goTo (.op .grid) s)
      (andThen (prepareDecimg s) fun t => blockLoop (t.bprow.toNat * t.bpcol.toNat) t) := by
  obtain ⟨hf, hw, hh⟩ := hv
  show Runs (goTo (.op .grid) s) (andThen (andThen (exec .grid s) fun a => andThen (exec .stride a) fun b =>
    andThen (exec .imgInit b) fun c => .next (startBlocks c)) fun t => blockLoop (t.bprow.toNat * t.bpcol.toNat) t)
  simp only [andThen_assoc]
  refine runs_op grid_ignoresPos (g := goTo (.op .stride)) (fun _ => rfl) fun a ha => ?_
  refine runs_op stride_ignoresPos (g := goTo (.op .imgInit)) (fun _ => rfl) fun b hb => ?_
  refine runs_op imgInit_ignoresPos (g := fun u => goTo (.op .blkFetch) (startBlocks u)) (fun _ => rfl) fun c hc => ?_
  cases ha
  obtain ⟨v, rfl, hst⟩ := stride_eq_next hb
  cases hc
  exact runs_blockLoop _ _
    (blocksLeft_startBlocks (s := imgInit { grid s with stride := v }) hf hst (ceilQuarter_pos hh) (ceilQuarter_pos hw))

/-- `DECIMG` one operation a step (43_assembler.md R168). -/
theorem runs_runDecimg (s : State) : Runs (goTo (.op .validate) s) (runDecimg s) := by
  unfold runDecimg
  cases he : validateError s.config.errOrder s.fmt s.w s.h with
  | some e =>
    have hexec : exec .validate (goTo (.op .validate) s) = .next (raise e s) :=
      execValidate_of_error (s := goTo (.op .validate) s) he
    exact .of_step (by rw [step_goTo_op, hexec]; rfl) (.now (raise e s))
  | none =>
    have hexec : exec .validate (goTo (.op .validate) s) = .next (goTo (.op .validate) s) :=
      execValidate_of_valid (s := goTo (.op .validate) s) he
    exact .of_step (by rw [step_goTo_op, hexec]; rfl) (runs_prepared (validateError_eq_none.mp he))

/-- The phases of `ENCFILE` one operation a step (45_file_encoder.md R207). -/
theorem runs_encodePhases (s : State) : Runs (goTo (.op .sig) s) (encodePhases s) := by
  show Runs (goTo (.op .sig) s) (andThen (exec .sig s) fun a => andThen (exec .ihdr a) fun b =>
    andThen (exec .scan b) fun c => andThen (exec .compress c) fun d => andThen (exec .idat d) fun e =>
    andThen (exec .iend e) fun f => .next (completeEncfile f))
  exact
    runs_op sig_ignoresPos (g := goTo (.op .ihdr)) (fun _ => rfl) fun _ _ =>
    runs_op ihdr_ignoresPos (g := goTo (.op .scan)) (fun _ => rfl) fun _ _ =>
    runs_op scan_ignoresPos (g := goTo (.op .compress)) (fun _ => rfl) fun _ _ =>
    runs_op compress_ignoresPos (g := goTo (.op .idat)) (fun _ => rfl) fun _ _ =>
    runs_op idat_ignoresPos (g := goTo (.op .iend)) (fun _ => rfl) fun _ _ =>
    runs_op iend_ignoresPos (g := completeEncfile) (fun _ => rfl) fun _ _ => .now _

/-- `ENCFILE` one operation a step. -/
theorem runs_runEncfile (s : State) : Runs (goTo (.op .encValidate) (beginEncfile s)) (runEncfile s) := by
  have hstep : step (goTo (.op .encValidate) (beginEncfile s)) =
      andThen (encValidate (goTo (.op .encValidate) (beginEncfile s))) fun t =>
        .next (advance (.op .encValidate) .encValidate t) := step_goTo_op .encValidate _
  have hcases := encValidate_cases (goTo (.op .encValidate) (beginEncfile s))
  simp only [goTo_blen, goTo_w, goTo_h, beginEncfile_blen, beginEncfile_w, beginEncfile_h] at hcases
  rw [runEncfile_eq]
  rcases hcases with ⟨hl, he⟩ | ⟨hl, hz, he⟩ | ⟨hl, hw, hh, he⟩
  · rw [if_pos hl]
    rw [he] at hstep
    exact .of_step hstep (.now _)
  · rw [if_neg (not_not.mpr hl), if_pos hz]
    rw [he] at hstep
    exact .of_step_refused hstep
  · rw [if_neg (not_not.mpr hl), if_neg (not_or.mpr ⟨hw, hh⟩)]
    rw [he] at hstep
    exact .of_step hstep (runs_encodePhases (beginEncfile s))

/-- Settles O60: the run follows the composition of `runDecimg` or `runEncfile`. -/
theorem stepwiseRunEqualsTheCommand : Obligations.StepwiseRunEqualsTheCommand := by
  unfold Obligations.StepwiseRunEqualsTheCommand
  intro s
  show Runs (enterCommand s) (exec (decodeCommand s.record) s)
  cases hop : s.op with
  | decimg =>
    rw [exec_decodeCommand_decimg hop, enterCommand, hop]
    exact runs_runDecimg s
  | encfile =>
    rw [exec_decodeCommand_encfile hop, enterCommand, hop]
    exact runs_runEncfile s

end Sys2Proof.Machine
end

-- ==== Proofs: decoding and encoding (30_encoding.md R80 to R92) ====
section
/-! Decoding and encoding of commands and blocks, each format's reader against its writer. -/

namespace Sys2Proof.Machine

/-! ### Commands -/

/-- Dispatch on an unrecognised format code keeps the code (30_encoding.md R82). -/
theorem decodeCommand_unrecognised {f : FormatCode} (hf : f.unrecognised = true) (w h : Half) (plen blen : Nat) :
    decodeCommand ⟨.decimg, f, w, h, plen, blen⟩ = .decimgOther f w h plen := by
  cases f with
  | bc1 => cases hf
  | bc3 => cases hf
  | other n => rfl

/-! ### Words -/

/-- The comparison of the endpoints selects the operation, and the fields come back as they were joined
(30_encoding.md R83, R88). -/
theorem decodeWord64_b64Of (c0 c1 : Half) (idx : Word) :
    decodeWord64 (b64Of c0 c1 idx) =
      if c1.toNat < c0.toNat then .bc1DecPal4 c0 c1 idx else .bc1DecPal3t c0 c1 idx := by
  simp only [decodeWord64, b64C0_of, b64C1_of, b64Idx_of, mode4Of, decide_eq_true_eq]

/-- The comparison of the alpha endpoints selects the operation, and the fields come back as they were joined
(30_encoding.md R86, R88). -/
theorem decodeWord128_b128Of (a0 a1 : Byte) (abits : BitVec 48) (c0 c1 : Half) (idx : Word) :
    decodeWord128 (b128Of a0 a1 abits c0 c1 idx) =
      if a1.toNat < a0.toNat then .bc3DecAramp8 a0 a1 abits c0 c1 idx
      else .bc3DecAramp6 a0 a1 abits c0 c1 idx := by
  simp only [decodeWord128, b128A0_of, b128A1_of, b128Abits_of, b128C0_of, b128C1_of, b128Idx_of, amode8Of,
    decide_eq_true_eq]

/-- Every word decodes to a well-formed operation that encodes as the bytes of that word: the fields tile it
(30_encoding.md R89). -/
theorem decodeWord64_wellFormed_encode (b : BitVec 64) :
    (decodeWord64 b).WellFormed = true ∧ encode (decodeWord64 b) = some (.b64 (leBytes 8 b.toNat)) := by
  rw [← b64Of_fields b, decodeWord64_b64Of]
  split
  · next hlt => exact ⟨decide_eq_true hlt, rfl⟩
  · next hge => exact ⟨decide_eq_true (Nat.le_of_not_lt hge), rfl⟩

/-- The same for the words of a BC3 block (30_encoding.md R89). -/
theorem decodeWord128_wellFormed_encode (b : BitVec 128) :
    (decodeWord128 b).WellFormed = true ∧ encode (decodeWord128 b) = some (.b128 (leBytes 16 b.toNat)) := by
  rw [← b128Of_fields b, decodeWord128_b128Of]
  split
  · next hlt => exact ⟨decide_eq_true hlt, rfl⟩
  · next hge => exact ⟨decide_eq_true (Nat.le_of_not_lt hge), rfl⟩

/-! ### Bytes -/

theorem decodeB64_of_length {bs : List Byte} (h : bs.length = 8) : decodeB64 bs = .ok (decodeWord64 (le64 bs)) :=
  if_pos h

theorem decodeB128_of_length {bs : List Byte} (h : bs.length = 16) :
    decodeB128 bs = .ok (decodeWord128 (le128 bs)) :=
  if_pos h

theorem decodeB64_leBytes (b : BitVec 64) : decodeB64 (leBytes 8 b.toNat) = .ok (decodeWord64 b) := by
  rw [decodeB64_of_length (length_leBytes 8 _), le64_leBytes]

theorem decodeB128_leBytes (b : BitVec 128) : decodeB128 (leBytes 16 b.toNat) = .ok (decodeWord128 b) := by
  rw [decodeB128_of_length (length_leBytes 16 _), le128_leBytes]

/-! ### Running a decoded block -/

/-- `BC1.DEC` writes neither `STATUS` nor the position. -/
theorem bc1Dec_status_pos (b : BitVec 64) (s : State) :
    (bc1Dec b s).status = s.status ∧ (bc1Dec b s).pos = s.pos := by
  rw [bc1Dec_eq b s s]
  exact ⟨rfl, rfl⟩

/-- `BC3.DEC` writes neither `STATUS` nor the position. -/
theorem bc3Dec_status_pos (b : BitVec 128) (s : State) :
    (bc3Dec b s).status = s.status ∧ (bc3Dec b s).pos = s.pos := by
  rw [bc3Dec_eq b s s rfl]
  exact ⟨rfl, rfl⟩

/-- A decoded block runs in every state, without an error (30_encoding.md R89). -/
theorem decodeBlock_runs {f : FormatCode} {bs : List Byte} {i : Instr} (h : decodeBlock f bs = .ok i) (s : State) :
    ∃ t, exec i s = .next t ∧ t.status = s.status ∧ t.pos = s.pos := by
  rcases decodeBlock_cases h with ⟨-, -, hrun⟩ | ⟨-, -, hrun⟩
  · exact ⟨_, hrun s, bc1Dec_status_pos _ s⟩
  · exact ⟨_, hrun s, bc3Dec_status_pos _ s⟩

/-! ### The statements -/

/-- Settles O2, format by format. The two modes of a block share one encoding, and the row's condition is what the
decoder tells them apart by. -/
theorem decodeUndoesEncode : Obligations.DecodeUndoesEncode := by
  unfold Obligations.DecodeUndoesEncode
  intro i c hwf henc
  cases i with
  | decimgBc1 w h plen | decimgBc3 w h plen | encfile w h blen =>
    cases henc
    rfl
  | decimgOther f w h plen =>
    cases henc
    exact congrArg Except.ok (decodeCommand_unrecognised hwf w h plen 0)
  | bc1DecPal4 c0 c1 idx =>
    cases henc
    have hlt : c1.toNat < c0.toNat := of_decide_eq_true hwf
    rw [decode, decodeB64_leBytes, decodeWord64_b64Of, if_pos hlt]
  | bc1DecPal3t c0 c1 idx =>
    cases henc
    have hle : c0.toNat ≤ c1.toNat := of_decide_eq_true hwf
    rw [decode, decodeB64_leBytes, decodeWord64_b64Of, if_neg (Nat.not_lt.mpr hle)]
  | bc3DecAramp8 a0 a1 abits c0 c1 idx =>
    cases henc
    have hlt : a1.toNat < a0.toNat := of_decide_eq_true hwf
    rw [decode, decodeB128_leBytes, decodeWord128_b128Of, if_pos hlt]
  | bc3DecAramp6 a0 a1 abits c0 c1 idx =>
    cases henc
    have hle : a0.toNat ≤ a1.toNat := of_decide_eq_true hwf
    rw [decode, decodeB128_leBytes, decodeWord128_b128Of, if_neg (Nat.not_lt.mpr hle)]
  | chunk tag data =>
    cases henc
    exact decodeChk_chunkFrame tag data (of_decide_eq_true hwf)
  | _ => cases henc

/-- Settles O3: the fields tile the block, so its bytes are those its decoding encodes to. -/
theorem everyBlockPatternIsLegal : Obligations.EveryBlockPatternIsLegal := by
  unfold Obligations.EveryBlockPatternIsLegal
  constructor
  · intro bs hlen
    have hdec := decodeB64_of_length hlen
    obtain ⟨hwf, henc⟩ := decodeWord64_wellFormed_encode (le64 bs)
    rw [leBytes_le64 hlen] at henc
    exact ⟨_, hdec, hwf, henc, decodeBlock_runs (f := .bc1) hdec⟩
  · intro bs hlen
    have hdec := decodeB128_of_length hlen
    obtain ⟨hwf, henc⟩ := decodeWord128_wellFormed_encode (le128 bs)
    rw [leBytes_le128 hlen] at henc
    exact ⟨_, hdec, hwf, henc, decodeBlock_runs (f := .bc3) hdec⟩

/-- Settles O1: each word is the encoding of its operation, which `decodeUndoesEncode` reads back. -/
theorem blockWordsDecode : Obligations.BlockWordsDecode := by
  unfold Obligations.BlockWordsDecode
  exact ⟨decodeUndoesEncode _ (.b64 _) (by decide) (by decide),
    decodeUndoesEncode _ (.b64 _) (by decide) (by decide),
    decodeUndoesEncode _ (.b128 _) (by decide) (by decide),
    decodeUndoesEncode _ (.b128 _) (by decide) (by decide)⟩

end Sys2Proof.Machine
end

-- ==== Proofs: the colour endpoints (40_color_endpoints.md) ====
section
/-! The expansion of an endpoint is strictly increasing field by field, and the fields of a raw value order it. -/

namespace Sys2Proof.Machine

/-! ### What the operations answer -/

theorem exec_unpack565 (c : Half) (s : State) :
    exec (.unpack565 c) s = .next { s with res := .fields (red5 c) (green6 c) (blue5 c) } := rfl

theorem exec_exp5 (v : BitVec 5) (s : State) : exec (.exp5 v) s = .next { s with res := .channel (expand5 v) } := rfl

theorem exec_exp6 (v : BitVec 6) (s : State) : exec (.exp6 v) s = .next { s with res := .channel (expand6 v) } := rfl

theorem exec_endpt (c : Half) (s : State) : exec (.endpt c) s = .next { s with res := .color (endpoint c) } := rfl

/-- The only colour that `ENDPT` can leave is the expansion of its operand. -/
theorem res_eq_endpoint_of_exec_endpt {c : Half} {s t : State} {x : Rgb} (h : exec (.endpt c) s = .next t)
    (hx : t.res = .color x) : x = endpoint c := by
  cases (exec_endpt c s).symm.trans h
  cases hx
  rfl

/-! ### The fields of a raw value -/

/-- The three fields are all of `c`, red at the top (40_color_endpoints.md R110). -/
theorem toNat_eq_fields (c : Half) :
    c.toNat = (red5 c).toNat * 2 ^ 11 + (green6 c).toNat * 2 ^ 5 + (blue5 c).toNat := by
  rw [toNat_red5, toNat_green6, toNat_blue5]
  omega

/-- The order of the raw values is the lexicographic order of their fields. -/
theorem toNat_lt_iff_fields_lex (c c' : Half) :
    c.toNat < c'.toNat ↔
      ((red5 c).toNat < (red5 c').toNat ∨ (red5 c = red5 c' ∧ ((green6 c).toNat < (green6 c').toNat ∨
        (green6 c = green6 c' ∧ (blue5 c).toNat < (blue5 c').toNat)))) := by
  simp only [← BitVec.toNat_inj, toNat_red5, toNat_green6, toNat_blue5]
  omega

/-! ### Each expansion is strictly increasing -/

/-- Scaling by 255 and then dividing by at most 255 never merges two neighbours. -/
theorem scale255_strictMono {d : Nat} (hpos : 0 < d) (hd : d ≤ 255) : StrictMono (fun n : Nat => n * 255 / d) := by
  refine strictMono_nat_of_lt_succ fun n => ?_
  calc n * 255 / d < n * 255 / d + 1 := Nat.lt_succ_self _
    _ = (n * 255 + d) / d := (Nat.add_div_right _ hpos).symm
    _ ≤ (n + 1) * 255 / d := Nat.div_le_div_right (by omega)

theorem expand5_toNat_lt_iff (v w : BitVec 5) : (expand5 v).toNat < (expand5 w).toNat ↔ v.toNat < w.toNat := by
  rw [toNat_expand5, toNat_expand5]
  exact (scale255_strictMono (d := 31) (by decide) (by decide)).lt_iff_lt

theorem expand6_toNat_lt_iff (v w : BitVec 6) : (expand6 v).toNat < (expand6 w).toNat ↔ v.toNat < w.toNat := by
  rw [toNat_expand6, toNat_expand6]
  exact (scale255_strictMono (d := 63) (by decide) (by decide)).lt_iff_lt

theorem expand5_inj {v w : BitVec 5} : expand5 v = expand5 w ↔ v = w := by
  rw [← BitVec.toNat_inj, ← BitVec.toNat_inj, toNat_expand5, toNat_expand5]
  exact (scale255_strictMono (d := 31) (by decide) (by decide)).injective.eq_iff

theorem expand6_inj {v w : BitVec 6} : expand6 v = expand6 w ↔ v = w := by
  rw [← BitVec.toNat_inj, ← BitVec.toNat_inj, toNat_expand6, toNat_expand6]
  exact (scale255_strictMono (d := 63) (by decide) (by decide)).injective.eq_iff

/-! ### The expanded endpoint -/

/-- Expanding keeps the lexicographic order of the fields, so the channels order the endpoints as the raw values do. -/
theorem toNat_lt_iff_endpoint_lex (c c' : Half) :
    c.toNat < c'.toNat ↔
      ((endpoint c).r.toNat < (endpoint c').r.toNat ∨ ((endpoint c).r = (endpoint c').r ∧
        ((endpoint c).g.toNat < (endpoint c').g.toNat ∨ ((endpoint c).g = (endpoint c').g ∧
          (endpoint c).b.toNat < (endpoint c').b.toNat)))) := by
  simp only [endpoint, expand5_toNat_lt_iff, expand6_toNat_lt_iff, expand5_inj, expand6_inj]
  exact toNat_lt_iff_fields_lex c c'

theorem endpoint_injective : Function.Injective endpoint := by
  intro c c' h
  obtain ⟨hr, hg, hb⟩ := Rgb.mk.inj h
  rw [expand5_inj] at hr hb
  rw [expand6_inj] at hg
  apply BitVec.eq_of_toNat_eq
  rw [toNat_eq_fields c, toNat_eq_fields c', hr, hg, hb]

/-! ### The statements -/

/-- Settles O9: the fields order the raw values, and each channel is a strictly increasing function of its field. -/
theorem endpointOrderIsTheRawOrder : Obligations.EndpointOrderIsTheRawOrder := by
  unfold Obligations.EndpointOrderIsTheRawOrder
  intro c c' s t t' x x' h h' hx hx'
  obtain rfl := res_eq_endpoint_of_exec_endpt h hx
  obtain rfl := res_eq_endpoint_of_exec_endpt h' hx'
  exact ⟨toNat_lt_iff_endpoint_lex c c', fun heq => endpoint_injective heq⟩

/-- Settles O6: no quotient needs more than 8 bits, so the channel is the quotient itself. -/
theorem expansionIsTheTruncatedQuotient : Obligations.ExpansionIsTheTruncatedQuotient := by
  unfold Obligations.ExpansionIsTheTruncatedQuotient
  constructor
  · intro v s
    refine ⟨expand5 v, exec_exp5 v s, ?_⟩
    rw [toNat_expand5]
    omega
  · intro v s
    refine ⟨expand6 v, exec_exp6 v s, ?_⟩
    rw [toNat_expand6]
    omega

/-- Settles O7: the fields that `UNPACK565` answers tile the 16 bits. -/
theorem unpackSplitsTheEndpoint : Obligations.UnpackSplitsTheEndpoint := by
  unfold Obligations.UnpackSplitsTheEndpoint
  exact fun c s => ⟨red5 c, green6 c, blue5 c, exec_unpack565 c s, toNat_eq_fields c⟩

/-- Settles O8: each channel is the expansion of its field, and each field a digit of the raw value. -/
theorem endpointExpandsEachField : Obligations.EndpointExpandsEachField := by
  unfold Obligations.EndpointExpandsEachField
  intro c s
  refine ⟨endpoint c, exec_endpt c s, ?_⟩
  simp only [endpoint, toNat_expand5, toNat_expand6, toNat_red5, toNat_green6, toNat_blue5, and_self]

end Sys2Proof.Machine
end

-- ==== Proofs: the BC1 block decoder (41_bc1.md) ====
section
/-! The palettes and the patch of a BC1 block as values, the whole effect of `BC1.DEC` in each mode, and the bounds of
an interpolated value. -/

namespace Sys2Proof.Machine

/-! ### The palettes and the patch as values -/

/-- The palette of four-colour mode on expanded endpoints (41_bc1.md R122, R123). -/
def fourColourPalette (x y : Rgb) : Vector Pixel 4 :=
  #v[x.solid, y.solid, (Rgb.mix mixThird x y).solid, (Rgb.mix mixThird y x).solid]

/-- The palette of three-colour-plus-transparent mode on expanded endpoints (41_bc1.md R122, R124). -/
def threeColourPalette (x y : Rgb) : Vector Pixel 4 :=
  #v[x.solid, y.solid, (Rgb.mix mixHalf x y).solid, Pixel.clear]

/-- The pixels that the selectors of an index word name in a palette (41_bc1.md R125, R126). -/
def selectPixels (p : Vector Pixel 4) (idx : Word) : Vector Pixel 16 :=
  Vector.ofFn fun q : Fin 16 => p.get (Fin.ofNat 4 (idx.toNat / 2 ^ (2 * q.val)))

theorem fourColourPalette_entries (x y : Rgb) :
    (fourColourPalette x y).get 0 = x.solid ∧ (fourColourPalette x y).get 1 = y.solid ∧
    (fourColourPalette x y).get 2 = (Rgb.mix mixThird x y).solid ∧
    (fourColourPalette x y).get 3 = (Rgb.mix mixThird y x).solid :=
  ⟨rfl, rfl, rfl, rfl⟩

theorem threeColourPalette_entries (x y : Rgb) :
    (threeColourPalette x y).get 0 = x.solid ∧ (threeColourPalette x y).get 1 = y.solid ∧
    (threeColourPalette x y).get 2 = (Rgb.mix mixHalf x y).solid ∧
    (threeColourPalette x y).get 3 = Pixel.clear :=
  ⟨rfl, rfl, rfl, rfl⟩

theorem selectPixels_get (p : Vector Pixel 4) (idx : Word) (q : Fin 16) :
    (selectPixels p idx).get q = p.get (Fin.ofNat 4 (idx.toNat / 2 ^ (2 * q.val))) := by
  simp only [selectPixels, Vector.get_eq_getElem, Vector.getElem_ofFn]

/-- With all selectors 0 every pixel is palette entry 0. -/
theorem selectPixels_zero_get (p : Vector Pixel 4) (q : Fin 16) : (selectPixels p 0).get q = p.get 0 := by
  have hz : (0 : Word).toNat = 0 := rfl
  rw [selectPixels_get, hz, Nat.zero_div]
  rfl

/-- Nothing stays of a palette whose four entries are written. -/
theorem Vector.set_all4 {α : Type} (p : Vector α 4) (w x y z : α) :
    (((p.set 0 w).set 1 x).set 2 y).set 3 z = #v[w, x, y, z] := by
  ext i hi
  rcases (by omega : i = 0 ∨ i = 1 ∨ i = 2 ∨ i = 3) with rfl | rfl | rfl | rfl <;> simp

/-! ### What the operations write -/

/-- `PAL.BASE` and `PAL4` write the whole palette, from `C0` and `C1` alone. -/
theorem pal4_palBase (s : State) :
    pal4 (palBase s) =
      { s with e0 := endpoint s.c0, e1 := endpoint s.c1,
               pal := fourColourPalette (endpoint s.c0) (endpoint s.c1) } := by
  simp only [pal4, palBase, Vector.set_all4, fourColourPalette]

/-- `PAL.BASE` and `PAL3T` write the whole palette, from `C0` and `C1` alone. -/
theorem pal3t_palBase (s : State) :
    pal3t (palBase s) =
      { s with e0 := endpoint s.c0, e1 := endpoint s.c1,
               pal := threeColourPalette (endpoint s.c0) (endpoint s.c1) } := by
  simp only [pal3t, palBase, Vector.set_all4, threeColourPalette]

theorem bc1Pixels_eq (s : State) : bc1Pixels s = { s with patch := selectPixels s.pal s.idx } := by
  simp only [bc1Pixels, selectPixels, selector2_toFin]

theorem mode4Of_eq_true_iff {c0 c1 : Half} : mode4Of c0 c1 = true ↔ c1.toNat < c0.toNat := decide_eq_true_iff

theorem amode8Of_eq_true_iff {a0 a1 : Byte} : amode8Of a0 a1 = true ↔ a1.toNat < a0.toNat := decide_eq_true_iff

theorem mode4Of_eq_false {c0 c1 : Half} (h : c0.toNat ≤ c1.toNat) : mode4Of c0 c1 = false :=
  decide_eq_false (Nat.not_lt.mpr h)

/-- The whole effect of `BC1.DEC` in four-colour mode. -/
theorem exec_bc1DecPal4 {c0 c1 : Half} (h : c1.toNat < c0.toNat) (idx : Word) (s : State) :
    exec (.bc1DecPal4 c0 c1 idx) s = .next
      { s with c0 := c0, c1 := c1, idx := idx, e0 := endpoint c0, e1 := endpoint c1, mode4 := true,
               pal := fourColourPalette (endpoint c0) (endpoint c1),
               patch := selectPixels (fourColourPalette (endpoint c0) (endpoint c1)) idx } := by
  have hrun : exec (.bc1DecPal4 c0 c1 idx) s =
      .next (bc1Pixels (cmp16 (pal4 (palBase (loadColor c0 c1 idx s))))) := rfl
  rw [hrun, pal4_palBase, bc1Pixels_eq]
  simp only [loadColor, cmp16, mode4Of_eq_true_iff.mpr h]

/-- The whole effect of `BC1.DEC` in three-colour-plus-transparent mode. -/
theorem exec_bc1DecPal3t {c0 c1 : Half} (h : c0.toNat ≤ c1.toNat) (idx : Word) (s : State) :
    exec (.bc1DecPal3t c0 c1 idx) s = .next
      { s with c0 := c0, c1 := c1, idx := idx, e0 := endpoint c0, e1 := endpoint c1, mode4 := false,
               pal := threeColourPalette (endpoint c0) (endpoint c1),
               patch := selectPixels (threeColourPalette (endpoint c0) (endpoint c1)) idx } := by
  have hrun : exec (.bc1DecPal3t c0 c1 idx) s =
      .next (bc1Pixels (cmp16 (pal3t (palBase (loadColor c0 c1 idx s))))) := rfl
  rw [hrun, pal3t_palBase, bc1Pixels_eq]
  simp only [loadColor, cmp16, mode4Of_eq_false h]

theorem bc1Dec_memories (b : BitVec 64) (s : State) :
    (bc1Dec b s).pay = s.pay ∧ (bc1Dec b s).img = s.img ∧ (bc1Dec b s).scan = s.scan ∧ (bc1Dec b s).z = s.z ∧
      (bc1Dec b s).out = s.out := by
  rw [bc1Dec_eq b s s]
  exact ⟨rfl, rfl, rfl, rfl, rfl⟩

theorem bc3Dec_memories (b : BitVec 128) (s : State) :
    (bc3Dec b s).pay = s.pay ∧ (bc3Dec b s).img = s.img ∧ (bc3Dec b s).scan = s.scan ∧ (bc3Dec b s).z = s.z ∧
      (bc3Dec b s).out = s.out := by
  rw [bc3Dec_eq b s s rfl]
  exact ⟨rfl, rfl, rfl, rfl, rfl⟩

/-! ### Numbers -/

/-- The channels of an expanded endpoint, from the raw value (40_color_endpoints.md R113). -/
theorem toNat_endpoint (c : Half) :
    (endpoint c).r.toNat = c.toNat / 2048 * 255 / 31 ∧ (endpoint c).g.toNat = c.toNat / 32 % 64 * 255 / 63 ∧
      (endpoint c).b.toNat = c.toNat % 32 * 255 / 31 := by
  simp only [endpoint, toNat_expand5, toNat_expand6, toNat_red5, toNat_green6, toNat_blue5, and_self]

/-- The two-thirds interpolant is the one-third interpolant of the endpoints exchanged. -/
theorem toNat_mixThird_swap (a b : Byte) : (mixThird b a).toNat = (a.toNat + 2 * b.toNat) / 3 := by
  rw [toNat_mixThird, Nat.add_comm]

theorem mixHalf_self (a : Byte) : mixHalf a a = a := by
  apply BitVec.eq_of_toNat_eq
  rw [toNat_mixHalf]
  omega

theorem Rgb.mix_mixHalf_self (x : Rgb) : Rgb.mix mixHalf x x = x := by
  simp only [Rgb.mix, mixHalf_self]

/-- The fields of eight bytes, each little-endian (30_encoding.md R83). -/
theorem toNat_fields_le64 (b0 b1 b2 b3 b4 b5 b6 b7 : Byte) :
    (b64C0 (le64 [b0, b1, b2, b3, b4, b5, b6, b7])).toNat = b0.toNat + b1.toNat * 256 ∧
    (b64C1 (le64 [b0, b1, b2, b3, b4, b5, b6, b7])).toNat = b2.toNat + b3.toNat * 256 ∧
    (b64Idx (le64 [b0, b1, b2, b3, b4, b5, b6, b7])).toNat =
      b4.toNat + b5.toNat * 2 ^ 8 + b6.toNat * 2 ^ 16 + b7.toNat * 2 ^ 24 := by
  have hb : ∀ b : Byte, b.toNat < 256 := fun b => b.isLt
  have h0 := hb b0; have h1 := hb b1; have h2 := hb b2; have h3 := hb b3
  have h4 := hb b4; have h5 := hb b5; have h6 := hb b6; have h7 := hb b7
  simp only [b64C0, b64C1, b64Idx, le64, leNat, BitVec.extractLsb'_toNat, BitVec.toNat_ofNat,
    Nat.shiftRight_eq_div_pow]
  refine ⟨?_, ?_, ?_⟩ <;> omega

/-- A weighted mean lies between the two values it is taken of. -/
theorem weightedMean_between {v w d : Nat} (hd : 0 < d) (hs : v + w = d) (m n : Nat) :
    min m n ≤ (v * m + w * n) / d ∧ (v * m + w * n) / d ≤ max m n := by
  constructor
  · rw [Nat.le_div_iff_mul_le hd]
    calc min m n * d = v * min m n + w * min m n := by rw [← hs]; ring
      _ ≤ v * m + w * n :=
        Nat.add_le_add (Nat.mul_le_mul_left v (Nat.min_le_left m n)) (Nat.mul_le_mul_left w (Nat.min_le_right m n))
  · apply Nat.div_le_of_le_mul
    calc v * m + w * n ≤ v * max m n + w * max m n :=
        Nat.add_le_add (Nat.mul_le_mul_left v (Nat.le_max_left m n)) (Nat.mul_le_mul_left w (Nat.le_max_right m n))
      _ = d * max m n := by rw [← hs]; ring

/-- The value lies between the two endpoints, whichever is the greater (41_bc1.md R129, 42_bc3.md R148). -/
def BetweenBytes (a b v : Byte) : Prop := min a.toNat b.toNat ≤ v.toNat ∧ v.toNat ≤ max a.toNat b.toNat

theorem BetweenBytes.swap {a b v : Byte} (h : BetweenBytes a b v) : BetweenBytes b a v := by
  rwa [BetweenBytes, Nat.min_comm, Nat.max_comm]

theorem mixThird_between (a b : Byte) : BetweenBytes a b (mixThird a b) := by
  rw [BetweenBytes, toNat_mixThird]
  simpa using weightedMean_between (v := 2) (w := 1) (d := 3) (by decide) rfl a.toNat b.toNat

theorem mixHalf_between (a b : Byte) : BetweenBytes a b (mixHalf a b) := by
  rw [BetweenBytes, toNat_mixHalf]
  simpa using weightedMean_between (v := 1) (w := 1) (d := 2) (by decide) rfl a.toNat b.toNat

theorem rampMix_between (k : Config.RampWeights) {d i : Nat} (h2 : 2 ≤ i) (hd : i ≤ d) (a0 a1 : Byte) :
    BetweenBytes a0 a1 (rampMix k d i a0 a1) := by
  rw [BetweenBytes, toNat_rampMix k h2 hd]
  exact weightedMean_between (by omega) (rampPair_sum k h2 hd) a0.toNat a1.toNat

/-- Each channel of an interpolated entry is made of that channel of the endpoints alone (41_bc1.md R129). -/
theorem channel_solid_mix {f : Pixel → Byte} {g : Rgb → Byte}
    (h : (f, g) ∈ [(Pixel.r, Rgb.r), (Pixel.g, Rgb.g), (Pixel.b, Rgb.b)]) (m : Byte → Byte → Byte) (x y : Rgb) :
    f (Rgb.mix m x y).solid = m (g x) (g y) := by
  simp only [List.mem_cons, Prod.mk.injEq, List.not_mem_nil, or_false] at h
  obtain ⟨rfl, rfl⟩ | ⟨rfl, rfl⟩ | ⟨rfl, rfl⟩ := h <;> rfl

/-! ### The statements -/

/-- Settles O16: the palette is `fourColourPalette` of the expanded endpoints. -/
theorem bc1DecodeInFourColourMode : Obligations.Bc1DecodeInFourColourMode := by
  unfold Obligations.Bc1DecodeInFourColourMode
  intro c0 c1 idx s hlt
  obtain ⟨hr0, hg0, hb0⟩ := toNat_endpoint c0
  obtain ⟨hr1, hg1, hb1⟩ := toNat_endpoint c1
  obtain ⟨h0, h1, h2, h3⟩ := fourColourPalette_entries (endpoint c0) (endpoint c1)
  refine ⟨_, _, _, _, exec_bc1DecPal4 hlt idx s, hr0, hg0, hb0, hr1, hg1, hb1, h0, h1, ?_⟩
  rw [h2, h3]
  exact ⟨toNat_mixThird _ _, toNat_mixThird _ _, toNat_mixThird _ _, rfl, toNat_mixThird_swap _ _,
    toNat_mixThird_swap _ _, toNat_mixThird_swap _ _, rfl, selectPixels_get _ idx⟩

/-- Settles O17: the palette is `threeColourPalette` of the expanded endpoints. -/
theorem bc1DecodeInThreeColourMode : Obligations.Bc1DecodeInThreeColourMode := by
  unfold Obligations.Bc1DecodeInThreeColourMode
  intro c0 c1 idx s hle
  obtain ⟨hr0, hg0, hb0⟩ := toNat_endpoint c0
  obtain ⟨hr1, hg1, hb1⟩ := toNat_endpoint c1
  obtain ⟨h0, h1, h2, h3⟩ := threeColourPalette_entries (endpoint c0) (endpoint c1)
  refine ⟨_, _, _, _, exec_bc1DecPal3t hle idx s, hr0, hg0, hb0, hr1, hg1, hb1, h0, h1, ?_⟩
  rw [h2]
  exact ⟨toNat_mixHalf _ _, toNat_mixHalf _ _, toNat_mixHalf _ _, rfl, h3, selectPixels_get _ idx⟩

/-- Settles O18: equal endpoints select three-colour mode, where the average of an endpoint with itself is that
endpoint. -/
theorem solidBc1Block : Obligations.SolidBc1Block := by
  unfold Obligations.SolidBc1Block
  intro b0 b1 b4 b5 b6 b7 s
  obtain ⟨hc0, hc1, hidx⟩ := toNat_fields_le64 b0 b1 b0 b1 b4 b5 b6 b7
  have hdec := decodeB64_of_length (bs := [b0, b1, b0, b1, b4, b5, b6, b7]) rfl
  generalize le64 [b0, b1, b0, b1, b4, b5, b6, b7] = b at hc0 hc1 hidx hdec
  have heq : b64C1 b = b64C0 b := BitVec.eq_of_toNat_eq (hc1.trans hc0.symm)
  have hop : decodeWord64 b = .bc1DecPal3t (b64C0 b) (b64C0 b) (b64Idx b) := by
    rw [decodeWord64, heq, mode4Of_eq_false le_rfl, if_neg Bool.false_ne_true]
  rw [hop] at hdec
  obtain ⟨h0, h1, h2, h3⟩ := threeColourPalette_entries (endpoint (b64C0 b)) (endpoint (b64C0 b))
  rw [Rgb.mix_mixHalf_self] at h2
  refine ⟨_, _, hdec, exec_bc1DecPal3t le_rfl _ s, h3, h2.trans h0.symm, h2.trans h1.symm, ?_⟩
  rintro rfl rfl rfl rfl q
  have hzero : b64Idx b = 0 := BitVec.eq_of_toNat_eq hidx
  obtain ⟨hr, hg, hb⟩ := toNat_endpoint (b64C0 b)
  rw [hc0, Nat.mul_comm b1.toNat] at hr hg hb
  rw [hzero, selectPixels_zero_get, h0]
  exact ⟨hr, hg, hb, rfl⟩

/-- Settles O23: every interpolant is a weighted mean of its two endpoints. -/
theorem interpolantsLieBetweenTheirEndpoints : Obligations.InterpolantsLieBetweenTheirEndpoints := by
  unfold Obligations.InterpolantsLieBetweenTheirEndpoints
  constructor
  · intro s t u f g hfg ht hu
    cases ht
    cases hu
    obtain ⟨-, -, h2, h3⟩ := pal4_entries s
    obtain ⟨-, -, h2', -⟩ := pal3t_entries s
    rw [h2, h3, h2']
    simp only [channel_solid_mix hfg, List.forall_mem_cons]
    exact ⟨mixThird_between _ _, (mixThird_between _ _).swap, mixHalf_between _ _, List.forall_mem_nil _⟩
  · intro k a0 a1 i h2
    have hi := i.isLt
    rw [ramp8_get, ramp6_get, if_neg (by omega), if_neg (by omega), if_neg (by omega), if_neg (by omega)]
    refine ⟨rampMix_between k h2 (by omega) a0 a1, fun h5 => ?_⟩
    rw [if_neg (by omega), if_neg (by omega)]
    exact rampMix_between k h2 h5 a0 a1

/-- Settles O26: the operation a block decodes to is the block decoder of its format, on the word of its bytes. -/
theorem blockDecodersDependOnlyOnTheirBytes : Obligations.BlockDecodersDependOnlyOnTheirBytes := by
  unfold Obligations.BlockDecodersDependOnlyOnTheirBytes
  intro f bs i s s' hdec hk
  rcases decodeBlock_cases hdec with ⟨-, -, hrun⟩ | ⟨hf, -, hrun⟩
  · obtain ⟨hpay, himg, hscan, hz, hout⟩ := bc1Dec_memories (le64 bs) s
    exact ⟨_, _, hrun s, hrun s', bc1Dec_patch_eq _ s s', hpay, himg, hscan, hz, hout, (bc1Dec_status_pos _ s).1⟩
  · obtain ⟨hpay, himg, hscan, hz, hout⟩ := bc3Dec_memories (le128 bs) s
    exact ⟨_, _, hrun s, hrun s', bc3Dec_patch_eq _ (hk hf), hpay, himg, hscan, hz, hout, (bc3Dec_status_pos _ s).1⟩

/-- Settles O10: the fields of the word are little-endian numbers of the bytes. -/
theorem bc1ParseReadsThreeFields : Obligations.Bc1ParseReadsThreeFields := by
  unfold Obligations.Bc1ParseReadsThreeFields
  exact fun b0 b1 b2 b3 b4 b5 b6 b7 _ => ⟨_, _, _, rfl, toNat_fields_le64 b0 b1 b2 b3 b4 b5 b6 b7⟩

/-- Settles O11: each flag is the decision of the unsigned order. -/
theorem comparisonsSetTheirFlag : Obligations.ComparisonsSetTheirFlag := by
  unfold Obligations.ComparisonsSetTheirFlag
  exact ⟨fun s => ⟨mode4Of s.c0 s.c1, rfl, mode4Of_eq_true_iff⟩,
    fun s => ⟨amode8Of s.a0 s.a1, rfl, amode8Of_eq_true_iff⟩⟩

/-- Settles O12, from the entries of `PAL.BASE` and the channels of an endpoint. -/
theorem paletteBaseHoldsTheEndpoints : Obligations.PaletteBaseHoldsTheEndpoints := by
  unfold Obligations.PaletteBaseHoldsTheEndpoints
  intro s
  obtain ⟨hr0, hg0, hb0⟩ := toNat_endpoint s.c0
  obtain ⟨hr1, hg1, hb1⟩ := toNat_endpoint s.c1
  exact ⟨endpoint s.c0, endpoint s.c1, (palBase s).pal, rfl, hr0, hg0, hb0, hr1, hg1, hb1, palBase_entries s⟩

/-- Settles O13: the second interpolant is the first with the endpoints exchanged. -/
theorem palette4InterpolatesByThirds : Obligations.Palette4InterpolatesByThirds := by
  unfold Obligations.Palette4InterpolatesByThirds
  intro s
  obtain ⟨h0, h1, h2, h3⟩ := pal4_entries s
  refine ⟨(pal4 s).pal, rfl, h0, h1, ?_⟩
  rw [h2, h3]
  exact ⟨toNat_mixThird _ _, toNat_mixThird _ _, toNat_mixThird _ _, rfl, toNat_mixThird_swap _ _,
    toNat_mixThird_swap _ _, toNat_mixThird_swap _ _, rfl⟩

/-- Settles O14, from the entries of `PAL3T`. -/
theorem palette3TAveragesAndClears : Obligations.Palette3TAveragesAndClears := by
  unfold Obligations.Palette3TAveragesAndClears
  intro s
  obtain ⟨h0, h1, h2, h3⟩ := pal3t_entries s
  refine ⟨(pal3t s).pal, rfl, h0, h1, ?_⟩
  rw [h2]
  exact ⟨toNat_mixHalf _ _, toNat_mixHalf _ _, toNat_mixHalf _ _, rfl, h3⟩

/-- Settles O15: a selector is a digit of its index word. -/
theorem selectorsAreFieldsOfTheIndexWords : Obligations.SelectorsAreFieldsOfTheIndexWords := by
  unfold Obligations.SelectorsAreFieldsOfTheIndexWords
  exact ⟨fun p s => ⟨selector2 s.idx p.toNat, rfl, toNat_selector2 s.idx p.toNat⟩,
    fun p s => ⟨selector3 s.abits p.toNat, rfl, toNat_selector3 s.abits p.toNat⟩⟩

end Sys2Proof.Machine
end

-- ==== Proofs: the BC3 block decoder (42_bc3.md) ====
section
/-! The two ramps as numbers under either reading of the weights, the patch of a BC3 block as a value, and the whole
effect of `BC3.DEC` in both of its forms. -/

namespace Sys2Proof.Machine

/-! ### The fields and the ramps as numbers -/

/-- The fields of sixteen bytes, each little-endian (30_encoding.md R86, 42_bc3.md R140). -/
theorem fields_le128 (b0 b1 b2 b3 b4 b5 b6 b7 b8 b9 b10 b11 b12 b13 b14 b15 : Byte) :
    let b := le128 [b0, b1, b2, b3, b4, b5, b6, b7, b8, b9, b10, b11, b12, b13, b14, b15]
    b128A0 b = b0 ∧ b128A1 b = b1 ∧
    (b128Abits b).toNat = b2.toNat + b3.toNat * 2 ^ 8 + b4.toNat * 2 ^ 16 + b5.toNat * 2 ^ 24 + b6.toNat * 2 ^ 32 +
      b7.toNat * 2 ^ 40 ∧
    (b128C0 b).toNat = b8.toNat + b9.toNat * 256 ∧ (b128C1 b).toNat = b10.toNat + b11.toNat * 256 ∧
    (b128Idx b).toNat = b12.toNat + b13.toNat * 2 ^ 8 + b14.toNat * 2 ^ 16 + b15.toNat * 2 ^ 24 := by
  intro b
  have hb : ∀ b : Byte, b.toNat < 256 := fun b => b.isLt
  have h0 := hb b0; have h1 := hb b1; have h2 := hb b2; have h3 := hb b3
  have h4 := hb b4; have h5 := hb b5; have h6 := hb b6; have h7 := hb b7
  have h8 := hb b8; have h9 := hb b9; have h10 := hb b10; have h11 := hb b11
  have h12 := hb b12; have h13 := hb b13; have h14 := hb b14; have h15 := hb b15
  simp only [← BitVec.toNat_inj, b128A0, b128A1, b128Abits, b128C0, b128C1, b128Idx, b, le128, leNat,
    BitVec.extractLsb'_toNat, BitVec.toNat_ofNat, Nat.shiftRight_eq_div_pow]
  refine ⟨?_, ?_, ?_, ?_, ?_, ?_⟩ <;> omega

/-- The entries of the 8-value ramp, the interpolated ones as weighted means (42_bc3.md R142, R147). -/
theorem ramp8_entries (k : Config.RampWeights) (a0 a1 : Byte) :
    (ramp8 k a0 a1).get 0 = a0 ∧ (ramp8 k a0 a1).get 1 = a1 ∧
    ∀ i : Fin 8, 2 ≤ i.val → ((ramp8 k a0 a1).get i).toNat =
      ((rampPair k 7 i.val).1 * a0.toNat + (rampPair k 7 i.val).2 * a1.toNat) / 7 := by
  refine ⟨rfl, rfl, fun i h2 => ?_⟩
  rw [ramp8_get, if_neg (by omega), if_neg (by omega)]
  exact toNat_rampMix k h2 (by omega) a0 a1

/-- The entries of the 6-value ramp: four weighted means and the two constants (42_bc3.md R143, R147). -/
theorem ramp6_entries (k : Config.RampWeights) (a0 a1 : Byte) :
    (ramp6 k a0 a1).get 0 = a0 ∧ (ramp6 k a0 a1).get 1 = a1 ∧
    (∀ i : Fin 8, 2 ≤ i.val → i.val ≤ 5 → ((ramp6 k a0 a1).get i).toNat =
      ((rampPair k 5 i.val).1 * a0.toNat + (rampPair k 5 i.val).2 * a1.toNat) / 5) ∧
    (ramp6 k a0 a1).get 6 = 0 ∧ (ramp6 k a0 a1).get 7 = 255 := by
  refine ⟨rfl, rfl, fun i h2 h5 => ?_, rfl, rfl⟩
  rw [ramp6_get, if_neg (by omega), if_neg (by omega), if_neg (by omega), if_neg (by omega)]
  exact toNat_rampMix k h2 h5 a0 a1

/-! ### The ramp and the patch of a block as values -/

/-- The ramp of a block: of 8 values when `A0 > A1`, of 6 otherwise (42_bc3.md R141 to R143). -/
def alphaRamp (k : Config.RampWeights) (a0 a1 : Byte) : Vector Byte 8 :=
  if a1.toNat < a0.toNat then ramp8 k a0 a1 else ramp6 k a0 a1

/-- The pixels that the two selector words name: the colour from the palette, the alpha from the ramp (42_bc3.md R146). -/
def joinPixels (p : Vector Pixel 4) (r : Vector Byte 8) (idx : Word) (ab : BitVec 48) : Vector Pixel 16 :=
  Vector.ofFn fun q : Fin 16 =>
    Pixel.withAlpha (p.get (Fin.ofNat 4 (idx.toNat / 2 ^ (2 * q.val)))) (r.get (Fin.ofNat 8 (ab.toNat / 2 ^ (3 * q.val))))

theorem joinPixels_get (p : Vector Pixel 4) (r : Vector Byte 8) (idx : Word) (ab : BitVec 48) (q : Fin 16) :
    (joinPixels p r idx ab).get q = Pixel.withAlpha (p.get (Fin.ofNat 4 (idx.toNat / 2 ^ (2 * q.val))))
      (r.get (Fin.ofNat 8 (ab.toNat / 2 ^ (3 * q.val)))) := by
  simp only [joinPixels, Vector.get_eq_getElem, Vector.getElem_ofFn]

/-! ### What the operations write -/

theorem exec_aramp8 (s : State) :
    exec .aramp8 s = .next { s with ramp := ramp8 s.config.rampWeights s.a0 s.a1 } := rfl

theorem exec_aramp6 (s : State) :
    exec .aramp6 s = .next { s with ramp := ramp6 s.config.rampWeights s.a0 s.a1 } := rfl

/-- The ramp operation that the order of `A0` and `A1` selects writes `alphaRamp`. -/
theorem exec_selectedRamp (s : State) :
    exec (if s.a1.toNat < s.a0.toNat then .aramp8 else .aramp6) s =
      .next { s with ramp := alphaRamp s.config.rampWeights s.a0 s.a1 } := by
  unfold alphaRamp
  split
  · exact exec_aramp8 s
  · exact exec_aramp6 s

/-- `BC3.COLOR` writes the palette of four-colour mode, whatever the order of `C0` and `C1`. -/
theorem exec_bc3Color (s : State) :
    exec .bc3Color s = .next { s with e0 := endpoint s.c0, e1 := endpoint s.c1,
                                      pal := fourColourPalette (endpoint s.c0) (endpoint s.c1) } :=
  congrArg Host.Outcome.next (pal4_palBase s)

/-- What both forms of `BC3.DEC` do, but for the ramp `r` that they write between `CMP8` and `BC3.COLOR`. -/
theorem bc3Pixels_bc3Color_load (a0 a1 : Byte) (ab : BitVec 48) (c0 c1 : Half) (idx : Word) (r : Vector Byte 8) (s : State) :
    bc3Pixels (bc3Color { cmp8 (loadColor c0 c1 idx (loadAlpha a0 a1 ab s)) with ramp := r }) =
      { s with a0 := a0, a1 := a1, abits := ab, c0 := c0, c1 := c1, idx := idx, e0 := endpoint c0, e1 := endpoint c1,
               amode8 := amode8Of a0 a1, pal := fourColourPalette (endpoint c0) (endpoint c1), ramp := r,
               patch := joinPixels (fourColourPalette (endpoint c0) (endpoint c1)) r idx ab } := by
  rw [bc3Color, pal4_palBase]
  simp only [bc3Pixels, joinPixels, selector2_toFin, selector3_toFin, cmp8, loadColor, loadAlpha]

/-- The whole effect of `BC3.DEC`, in the form that the order of `A0` and `A1` selects. -/
theorem exec_bc3Dec (a0 a1 : Byte) (ab : BitVec 48) (c0 c1 : Half) (idx : Word) (s : State) :
    exec (if a1.toNat < a0.toNat then .bc3DecAramp8 a0 a1 ab c0 c1 idx else .bc3DecAramp6 a0 a1 ab c0 c1 idx) s = .next
      { s with a0 := a0, a1 := a1, abits := ab, c0 := c0, c1 := c1, idx := idx, e0 := endpoint c0, e1 := endpoint c1,
               amode8 := amode8Of a0 a1, pal := fourColourPalette (endpoint c0) (endpoint c1),
               ramp := alphaRamp s.config.rampWeights a0 a1,
               patch := joinPixels (fourColourPalette (endpoint c0) (endpoint c1))
                 (alphaRamp s.config.rampWeights a0 a1) idx ab } := by
  unfold alphaRamp
  split
  · exact congrArg Host.Outcome.next (bc3Pixels_bc3Color_load a0 a1 ab c0 c1 idx (ramp8 s.config.rampWeights a0 a1) s)
  · exact congrArg Host.Outcome.next (bc3Pixels_bc3Color_load a0 a1 ab c0 c1 idx (ramp6 s.config.rampWeights a0 a1) s)

/-! ### The statements -/

/-- Settles O25: the patch is `joinPixels` of the palette that `BC3.COLOR` writes and of the ramp that the selected ramp
operation writes. -/
theorem bc3DecodeJoinsColourAndAlpha : Obligations.Bc3DecodeJoinsColourAndAlpha := by
  unfold Obligations.Bc3DecodeJoinsColourAndAlpha
  intro a0 a1 ab c0 c1 idx s
  refine ⟨_, _, _, _, _, _, rfl, exec_bc3Dec a0 a1 ab c0 c1 idx s, exec_bc3Color _,
    exec_selectedRamp { s with a0 := a0, a1 := a1 }, fun q => ?_⟩
  rw [joinPixels_get]
  exact ⟨rfl, rfl, rfl, rfl⟩

/-- Settles O19: the fields of the word are little-endian numbers of the bytes. -/
theorem bc3ParseReadsSixFields : Obligations.Bc3ParseReadsSixFields := by
  unfold Obligations.Bc3ParseReadsSixFields
  intro b0 b1 b2 b3 b4 b5 b6 b7 b8 b9 b10 b11 b12 b13 b14 b15 s
  have hf := fields_le128 b0 b1 b2 b3 b4 b5 b6 b7 b8 b9 b10 b11 b12 b13 b14 b15
  generalize le128 [b0, b1, b2, b3, b4, b5, b6, b7, b8, b9, b10, b11, b12, b13, b14, b15] = b at hf ⊢
  obtain ⟨rfl, rfl, hab, hc0, hc1, hidx⟩ := hf
  exact ⟨_, _, _, _, rfl, hab, hc0, hc1, hidx⟩

/-- Settles O20: `rampPair` as written is the pair `(7-i, i)`. -/
theorem ramp8IsAsWritten : Obligations.Ramp8IsAsWritten := by
  unfold Obligations.Ramp8IsAsWritten
  intro s hk
  exact ⟨_, exec_aramp8 s, hk ▸ ramp8_entries .asWritten s.a0 s.a1⟩

/-- Settles O21: `rampPair` as written is the pair `(5-i, i)`. -/
theorem ramp6IsAsWritten : Obligations.Ramp6IsAsWritten := by
  unfold Obligations.Ramp6IsAsWritten
  intro s hk
  exact ⟨_, exec_aramp6 s, hk ▸ ramp6_entries .asWritten s.a0 s.a1⟩

/-- Settles O22: `rampPair` shifted is the pair `(d+1-i, i-1)` over `d`. -/
theorem shiftedRampsHaveTheShiftedWeights : Obligations.ShiftedRampsHaveTheShiftedWeights := by
  unfold Obligations.ShiftedRampsHaveTheShiftedWeights
  intro s hk
  exact ⟨⟨_, exec_aramp8 s, hk ▸ ramp8_entries .shifted s.a0 s.a1⟩,
    ⟨_, exec_aramp6 s, hk ▸ ramp6_entries .shifted s.a0 s.a1⟩⟩

/-- Settles O24: the palette is `fourColourPalette` of the expanded endpoints. -/
theorem bc3ColourIsAlwaysFourColour : Obligations.Bc3ColourIsAlwaysFourColour := by
  unfold Obligations.Bc3ColourIsAlwaysFourColour
  intro s
  obtain ⟨hr0, hg0, hb0⟩ := toNat_endpoint s.c0
  obtain ⟨hr1, hg1, hb1⟩ := toNat_endpoint s.c1
  obtain ⟨h0, h1, h2, h3⟩ := fourColourPalette_entries (endpoint s.c0) (endpoint s.c1)
  refine ⟨_, _, _, exec_bc3Color s, hr0, hg0, hb0, hr1, hg1, hb1, h0, h1, ?_⟩
  rw [h2, h3]
  exact ⟨toNat_mixThird _ _, toNat_mixThird _ _, toNat_mixThird _ _, rfl, toNat_mixThird_swap _ _,
    toNat_mixThird_swap _ _, toNat_mixThird_swap _ _, rfl⟩

end Sys2Proof.Machine
end

-- ==== Proofs: the image assembler and its sequencer (43_assembler.md) ====
section
/-! The operations of `DECIMG` one by one, a whole `DECIMG` on valid operands, and the step around an operation. -/

namespace Sys2Proof.Machine

/-! ### `VALIDATE`, `STRIDE` -/

theorem validateError_unrecognised (o : Config.ErrOrder) {f : FormatCode} {w h : Half} (hf : f.unrecognised = true)
    (hw : w ≠ 0) (hh : h ≠ 0) : validateError o f w h = some .unsupportedFormat := by
  rw [validateError, if_neg (not_or.mpr ⟨hw, hh⟩), if_pos hf]

theorem validateError_zero (o : Config.ErrOrder) {f : FormatCode} {w h : Half} (hf : f.unrecognised = false)
    (hz : w = 0 ∨ h = 0) : validateError o f w h = some .invalidDimensions := by
  rw [validateError, if_pos hz, hf, if_neg Bool.false_ne_true]

theorem validateError_both (o : Config.ErrOrder) {f : FormatCode} {w h : Half} (hf : f.unrecognised = true)
    (hz : w = 0 ∨ h = 0) : validateError o f w h = some (bothFaults o f w h) := by
  rw [validateError, if_pos hz, if_pos hf]

theorem bothFaults_either (f : FormatCode) (w h : Half) :
    bothFaults .either f w h = .unsupportedFormat ∨ bothFaults .either f w h = .invalidDimensions := by
  by_cases hr : Config.reportsFormat f w h = true
  · exact .inl (if_pos hr)
  · exact .inr (if_neg hr)

theorem stride_bc1 {s : State} (hf : s.fmt = .bc1) : stride s = .next { s with stride := 8 } := by
  rw [stride, hf]

theorem stride_bc3 {s : State} (hf : s.fmt = .bc3) : stride s = .next { s with stride := 16 } := by
  rw [stride, hf]

theorem stride_other {s : State} {n : Nat} (hf : s.fmt = .other n) : stride s = .refused .formatNotRecognised := by
  rw [stride, hf]

/-! ### `BLKFETCH`, `DISPATCH`, `PIXSTORE` -/

/-- The range of the block at `BLK` ends beyond `PLEN` (43_assembler.md R165). -/
abbrev State.BeyondPlen (s : State) : Prop := s.plen < s.blkIdx * s.stride.toNat + s.stride.toNat

theorem blkFetch_of_beyondPlen {s : State} (h : s.BeyondPlen) : blkFetch s = .next { s with blk := none } := if_pos h

theorem beyondPlen_of_blkFetch_none {s t : State} (h : blkFetch s = .next t) (hb : t.blk = none) : s.BeyondPlen := by
  rcases blkFetch_cases s with ⟨hlt, -⟩ | ⟨-, -, he⟩ | ⟨-, -, he⟩
  · exact hlt
  · rw [he] at h
    cases h
    cases hb
  · rw [he] at h
    cases h

/-- Blocks lie in `PAY` in the order of their indices, so those after a block beyond `PLEN` are beyond it
(43_assembler.md R172). -/
theorem State.BeyondPlen.mono {s s' : State} (hs : s'.stride = s.stride) (hp : s'.plen = s.plen)
    (hi : s.blkIdx ≤ s'.blkIdx) (h : s.BeyondPlen) : s'.BeyondPlen :=
  calc s'.plen = s.plen := hp
    _ < s.blkIdx * s.stride.toNat + s.stride.toNat := h
    _ ≤ s'.blkIdx * s.stride.toNat + s.stride.toNat := Nat.add_le_add_right (Nat.mul_le_mul_right _ hi) _
    _ = s'.blkIdx * s'.stride.toNat + s'.stride.toNat := by rw [hs]

theorem dispatch_of_skipped {s : State} (hb : s.blk = none) : dispatch s = .next s := by
  rw [dispatch, hb]

/-- `PIXSTORE` meets no fault on an image of the size `W*H*4` (43_assembler.md R163, R167). -/
theorem pixStore_completes {s : State} (hs : s.img.size = s.w.toNat * s.h.toNat * 4) :
    ∃ t, pixStore s = .next t := by
  obtain ⟨m, hm, -⟩ := storePixels_isSome (patch := s.patch) (br := s.br.toNat) (bc := s.bc.toNat)
    (List.finRange 16) s.img hs
  exact ⟨{ s with img := m }, by rw [pixStore, hm]⟩

/-! ### The pixels of an image -/

/-- A slice of a space, byte by byte. -/
theorem Memory.slice_eq_map_read {m : Memory} {a n : Nat} (h : a + n ≤ m.size) :
    (m.bytes.drop a).take n = (List.range n).map fun k => m.read (a + k) :=
  (Memory.readBytes_eq_some.mp (Memory.readBytes_eq_slice h)).2

theorem Pixel.map_getD_bytes (q : Pixel) : ((List.range 4).map fun k => q.bytes.getD k 0) = q.bytes := rfl

/-- The column, the row and the component of byte `k` of pixel `(x, y)` (20_memory.md R52). -/
theorem pixelAddr_add {w x y k : Nat} (hx : x < w) (hk : k < 4) :
    (pixelAddr w x y + k) / 4 % w = x ∧ (pixelAddr w x y + k) / 4 / w = y ∧ (pixelAddr w x y + k) % 4 = k := by
  obtain ⟨hcol, hrow⟩ := (pixelAddr_iff (y := y) (a := pixelAddr w x y + k) hx).mp ⟨by omega, by omega⟩
  exact ⟨hcol, hrow, by unfold pixelAddr; omega⟩

/-! ### A valid `DECIMG` -/

/-- The end of a valid `DECIMG`, in the registers it ends with: `OK`, at the last block of the grid, an image of the
operands' size (43_assembler.md R161, R163, R170). -/
theorem runDecimg_completes {s : State} (hv : s.Validated) (hp : s.PayloadPresent) :
    ∃ (v : BitVec 5) (t : State), runDecimg s = .next t ∧ v.toNat = strideOf s.fmt ∧
      LoopFrame (startBlocks (imgInit { grid s with stride := v })) t ∧ t.status = .ok ∧ t.pos = .idle ∧
      t.bprow.toNat = (s.w.toNat + 3) / 4 ∧ t.bpcol.toNat = (s.h.toNat + 3) / 4 ∧
      t.br.toNat + 1 = t.bpcol.toNat ∧ t.bc.toNat + 1 = t.bprow.toNat ∧
      t.img.bytes.length = s.w.toNat * s.h.toNat * 4 := by
  obtain ⟨v, t, hrun, hval, f, hst, hpos, hbr, hbc, hsz, -⟩ := runDecimg_spec hv hp
  have hcols : t.bprow.toNat = (s.w.toNat + 3) / 4 := f.bprow ▸ toNat_ceilQuarter s.w
  have hrows : t.bpcol.toNat = (s.h.toNat + 3) / 4 := f.bpcol ▸ toNat_ceilQuarter s.h
  exact ⟨v, t, hrun, hval, f, hst, hpos, hcols, hrows, hbr.trans hrows.symm, hbc.trans hcols.symm,
    t.img.length_bytes.trans hsz⟩

/-- The image of a valid `DECIMG`, pixel by pixel. -/
theorem runDecimg_pixels {s : State} (hv : s.Validated) (hp : s.PayloadPresent) :
    ∃ t, runDecimg s = .next t ∧ ∀ x y, x < s.w.toNat → y < s.h.toNat →
      (t.img.bytes.drop (pixelAddr s.w.toNat x y)).take 4 =
        (imagePixel s.config s.fmt s.w.toNat s.plen s.pay.read x y).bytes := by
  obtain ⟨t, hrun, -, -, hsz, hread⟩ := runDecimg_image hv hp
  refine ⟨t, hrun, fun x y hx hy => ?_⟩
  have hend : pixelAddr s.w.toNat x y + 4 ≤ s.w.toNat * s.h.toNat * 4 := pixelAddr_end hx hy
  rw [Memory.slice_eq_map_read (hsz ▸ hend), ← Pixel.map_getD_bytes]
  refine List.map_congr_left fun k hk => ?_
  have hk : k < 4 := List.mem_range.mp hk
  obtain ⟨hcol, hrow, hcomp⟩ := pixelAddr_add (y := y) hx hk
  rw [hread, if_pos (by omega), hcol, hrow, hcomp]

/-! ### The step -/

theorem step_of_fetch {s t : State} {i : Instr} (hf : fetch s = .instr i) (hx : exec i s = .next t) :
    step s = .next (advance s.pos i t) := by
  rw [step, hf]
  show andThen (exec i s) _ = _
  rw [hx, andThen_next]

theorem step_of_idle {s : State} (hp : s.pos = .idle) : step s = .next s := by
  have hf : fetch s = .nothing := by rw [fetch, hp]
  rw [step, hf]

theorem fetch_of_block {s : State} {bs : List Byte} {i : Instr} (hp : s.pos = .block) (hb : s.blk = some bs)
    (hd : decodeBlock s.fmt bs = .ok i) : fetch s = .instr i := by
  simp only [fetch, hp, hb, hd, fetchedOf]

theorem fetch_of_command {s : State} (hp : s.pos = .command) : fetch s = .instr (decodeCommand s.record) := by
  rw [fetch, hp]

theorem fetch_of_op {s : State} {i : Instr} (hp : s.pos = .op i) : fetch s = .instr i := by
  rw [fetch, hp]

/-! ### The statements -/

/-- Settles O31: `blkNext_spec` names the two cases of the grid. -/
theorem blockNextIsRasterOrder : Obligations.BlockNextIsRasterOrder := by
  unfold Obligations.BlockNextIsRasterOrder
  intro s hc hr
  rcases blkNext_spec hc hr with ⟨hlt, r, c, he, hidx, hc', hr'⟩ | ⟨hlast, -, -, he⟩
  · rw [if_pos hlt]
    exact ⟨r, c, congrArg Host.Outcome.next he, hidx, hc', hr'⟩
  · rw [if_neg hlast.not_lt]
    exact congrArg Host.Outcome.next he

/-- Settles O32: a fetch skips exactly beyond `PLEN`, and with the payload present it takes the bytes otherwise. -/
theorem blockFetchSkipsOrTakesTheBytes : Obligations.BlockFetchSkipsOrTakesTheBytes := by
  unfold Obligations.BlockFetchSkipsOrTakesTheBytes
  refine ⟨fun s hp => ?_, fun s s' t hs hlen hi ht hb => ?_⟩
  · rcases blkFetch_cases s with ⟨hlt, he⟩ | ⟨hle, -, he⟩ | ⟨hle, hlt, -⟩
    · exact ⟨none, he, iff_of_true rfl hlt, fun _ h => nomatch h⟩
    · refine ⟨_, he, iff_of_false (Option.some_ne_none _) hle.not_gt, fun bs h => ?_⟩
      cases h
      exact ⟨by simp, fun j hj => by simp [hj]⟩
    · exact absurd (hle.trans hp) hlt.not_ge
  · exact blkFetch_of_beyondPlen ((beyondPlen_of_blkFetch_none ht hb).mono hs hlen hi)

/-- Settles O33: a block of its format's length decodes, and running it is what `DISPATCH` does. -/
theorem dispatchRunsTheDecodedBlock : Obligations.DispatchRunsTheDecodedBlock := by
  unfold Obligations.DispatchRunsTheDecodedBlock
  refine ⟨fun s bs hb hl hf => ?_, fun s hb => dispatch_of_skipped hb⟩
  obtain ⟨i, hi⟩ := decodeBlock_ok hf hl
  obtain ⟨t, ht, -⟩ := decodeBlock_runs hi s
  exact ⟨i, t, hi, (exec_decodedBlock hb hi).symm.trans ht, ht⟩

/-- Settles O34: on an image of its size `PIXSTORE` completes, and `pixStore_reads` says what every byte then is. -/
theorem pixelStoreWritesItsSquare : Obligations.PixelStoreWritesItsSquare := by
  unfold Obligations.PixelStoreWritesItsSquare
  intro s hwf hsz
  obtain ⟨t, ht⟩ := pixStore_completes hsz
  obtain ⟨m, rfl, -, hmsz, hread⟩ := pixStore_reads hwf hsz ht
  exact ⟨m, ht, hmsz, hread⟩

/-- Settles O36: `runDecimg_completes` says where a `DECIMG` ends; the loop's frame from the prepared state on gives the
operands, the stride and all that stays. -/
theorem decodeImageCompletes : Obligations.DecodeImageCompletes := by
  unfold Obligations.DecodeImageCompletes
  intro w h plen s hw hh hp
  constructor
  · obtain ⟨v, t, hrun, hv, f, hst, hpos, hcols, hrows, hbr, hbc, hlen⟩ :=
      runDecimg_completes (s := presentDecimg .bc1 w h plen s) ⟨rfl, hw, hh⟩ hp
    obtain ⟨ha0, ha1, habits, hamode, hramp⟩ := f.alpha rfl
    exact ⟨t, hrun, hst, hpos, f.stride.trans (BitVec.eq_of_toNat_eq hv), f.op, f.fmt, f.w, f.h, f.plen, hcols, hrows,
      hbr, hbc, hlen, ha0, ha1, habits, hamode, hramp, f.blen, f.phase, f.row, f.crc, f.tag, f.dlen, f.pay, f.scan, f.z,
      f.out, f.res⟩
  · obtain ⟨v, t, hrun, hv, f, hst, hpos, hcols, hrows, hbr, hbc, hlen⟩ :=
      runDecimg_completes (s := presentDecimg .bc3 w h plen s) ⟨rfl, hw, hh⟩ hp
    exact ⟨t, hrun, hst, hpos, f.stride.trans (BitVec.eq_of_toNat_eq hv), f.op, f.fmt, f.w, f.h, f.plen, hcols, hrows,
      hbr, hbc, hlen, f.mode rfl, f.blen, f.phase, f.row, f.crc, f.tag, f.dlen, f.pay, f.scan, f.z, f.out, f.res⟩

/-- Settles O37: both formats are `DECIMG` on the presented operands, whose pixels `runDecimg_pixels` gives. -/
theorem decodedImageIsTheDecodedBlocks : Obligations.DecodedImageIsTheDecodedBlocks := by
  unfold Obligations.DecodedImageIsTheDecodedBlocks
  intro f i w h plen s hw hh hp hi
  have hpixels (hf : f.unrecognised = false) := runDecimg_pixels (s := presentDecimg f w h plen s) ⟨hf, hw, hh⟩ hp
  simp only [List.mem_cons, List.not_mem_nil, or_false, Prod.mk.injEq] at hi
  rcases hi with ⟨rfl, rfl⟩ | ⟨rfl, rfl⟩
  · exact hpixels rfl
  · exact hpixels rfl

/-- Settles O4: at each position, what the fetch finds there and where `advance` leaves the engine. -/
theorem stepRunsTheDecodedInstruction : Obligations.StepRunsTheDecodedInstruction := by
  unfold Obligations.StepRunsTheDecodedInstruction
  refine ⟨fun s bs i t hp hb hd hx => ?_, fun s t hp hx => ?_, fun s i t hp hx => ?_, fun s hp => step_of_idle hp⟩
  · rw [step_of_fetch (fetch_of_block hp hb hd) hx, hp]
    rfl
  · rw [step_of_fetch (fetch_of_command hp) hx, hp]
    rfl
  · rw [step_of_fetch (fetch_of_op hp) hx, hp]
    rfl

/-- Settles O27: what `validateError` answers in each case is what `VALIDATE` raises, both values of `ERR_ORDER` covered. -/
theorem validateRaisesOrGoesOn : Obligations.ValidateRaisesOrGoesOn := by
  unfold Obligations.ValidateRaisesOrGoesOn
  intro s
  refine ⟨fun hf hw hh => execValidate_of_valid (validateError_eq_none.mpr ⟨hf, hw, hh⟩),
    fun hf hw hh => execValidate_of_error (validateError_unrecognised _ hf hw hh),
    fun hf hz => execValidate_of_error (validateError_zero _ hf hz),
    fun hf hz => ⟨_, execValidate_of_error (validateError_both _ hf hz), ?_⟩⟩
  cases s.config.errOrder with
  | formatFirst => rfl
  | either => exact bothFaults_either s.fmt s.w s.h

/-- Settles O29: `(n + 3) / 4` is the ceiling of `n / 4`. -/
theorem gridIsTheCeilingOfTheQuarter : Obligations.GridIsTheCeilingOfTheQuarter := by
  unfold Obligations.GridIsTheCeilingOfTheQuarter
  intro s
  have hcols := toNat_ceilQuarter s.w
  have hrows := toNat_ceilQuarter s.h
  exact ⟨ceilQuarter s.w, ceilQuarter s.h, rfl, by omega, by omega, by omega, by omega⟩

/-- Settles O30: the format code selects the stride, and `IMG` is `Memory.zeros`. -/
theorem strideAndImageAreSetUp : Obligations.StrideAndImageAreSetUp := by
  unfold Obligations.StrideAndImageAreSetUp
  exact ⟨fun _ hf => stride_bc1 hf, fun _ hf => stride_bc3 hf, fun _ _ hf => stride_other hf,
    fun _ => ⟨_, rfl, Memory.bytes_zeros _⟩⟩

end Sys2Proof.Machine
end

-- ==== Proofs: the checksum and the chunk (44_crc_frame.md) ====
section
/-! A shift step is linear, which gives the table form of one byte; absorbing is injective in the byte and in the
accumulator, so every byte is seen; the frame of a chunk is `chunk_spec` and `chunk_out`. -/

namespace Sys2Proof.Machine

/-! ### What the operations answer -/

theorem exec_be32 (v : Word) (s : State) : exec (.be32 v) s = .next { s with res := .bytes (be32 v) } := rfl

theorem exec_crc32Init (s : State) : exec .crc32Init s = .next { s with crc := crcStart } := rfl

theorem exec_crc32Upd (x : Byte) (s : State) :
    exec (.crc32Upd x) s = .next { s with crc := crcAbsorb s.crc x } := rfl

theorem exec_crc32Fin (s : State) : exec .crc32Fin s = .next { s with res := .word (crcFinish s.crc) } := rfl

theorem exec_crc32 (bs : List Byte) (s : State) :
    exec (.crc32 bs) s = .next { s with crc := crcAbsorbAll crcStart bs, res := .word (crc32Of bs) } := rfl

theorem exec_chunk (tag : Tag) (data : List Byte) (s : State) : exec (.chunk tag data) s = chunk tag data s := rfl

/-! ### Big-endian bytes and the inversion -/

/-- The bytes of `BE32` are the digits of its operand in base 256, the most significant first. -/
theorem toNat_eq_bigEndianBytes (v : Word) :
    v.toNat = (v.extractLsb' 24 8).toNat * 2 ^ 24 + (v.extractLsb' 16 8).toNat * 2 ^ 16 +
      (v.extractLsb' 8 8).toNat * 2 ^ 8 + (v.extractLsb' 0 8).toNat := by
  have hv := v.isLt
  simp only [BitVec.extractLsb'_toNat, Nat.shiftRight_eq_div_pow]
  omega

/-- The final inversion flips all 32 bits. -/
theorem crcFinish_eq_not (c : Word) : crcFinish c = ~~~c := BitVec.xor_allOnes

/-! ### Shift steps -/

/-- A shift step halves the value and flips the polynomial's bits when the value was odd (44_crc_frame.md R182). -/
theorem crcShift_eq_half (c : Word) :
    crcShift c = if c.toNat % 2 = 1 then BitVec.ofNat 32 (c.toNat / 2) ^^^ 0xEDB88320
      else BitVec.ofNat 32 (c.toNat / 2) := by
  have hhalf : c >>> 1 = BitVec.ofNat 32 (c.toNat / 2) := by
    apply BitVec.eq_of_toNat_eq
    simp only [BitVec.toNat_ushiftRight, Nat.shiftRight_eq_div_pow, BitVec.toNat_ofNat]
    omega
  have hodd : c.getLsbD 0 = decide (c.toNat % 2 = 1) := Nat.testBit_zero _
  simp only [crcShift, hhalf, hodd, decide_eq_true_eq]

theorem crcShifts_add (m n : Nat) (c : Word) : crcShifts (m + n) c = crcShifts n (crcShifts m c) := by
  induction m generalizing c with
  | zero => rw [Nat.zero_add, crcShifts]
  | succ m ih => rw [Nat.succ_add, crcShifts, crcShifts, ih]

/-- A part whose bit 0 is clear passes through a shift step without touching the polynomial. -/
theorem crcShift_xor_even (a : Word) {b : Word} (hb : b.getLsbD 0 = false) :
    crcShift (a ^^^ b) = crcShift a ^^^ (b >>> 1) := by
  have hbit : (a ^^^ b).getLsbD 0 = a.getLsbD 0 := by rw [BitVec.getLsbD_xor, hb, Bool.xor_false]
  rw [crcShift, crcShift, hbit, BitVec.ushiftRight_xor_distrib]
  split
  · rw [BitVec.xor_assoc, BitVec.xor_comm (b >>> 1), ← BitVec.xor_assoc]
  · rfl

/-- A part whose `n` low bits are clear is only shifted by `n` shift steps: the idea of the table form. -/
theorem crcShifts_xor_of_low_zero (n : Nat) (a b : Word) (hb : ∀ i < n, b.getLsbD i = false) :
    crcShifts n (a ^^^ b) = crcShifts n a ^^^ (b >>> n) := by
  induction n generalizing a b with
  | zero => rw [crcShifts, crcShifts, BitVec.ushiftRight_zero]
  | succ n ih =>
    have hlow : ∀ i < n, (b >>> 1).getLsbD i = false := fun i hi => by
      rw [BitVec.getLsbD_ushiftRight]
      exact hb _ (by omega)
    rw [crcShifts, crcShifts, crcShift_xor_even a (hb 0 (Nat.succ_pos n)), ih _ _ hlow, ← BitVec.shiftRight_add,
      Nat.add_comm 1 n]

/-! ### Absorbing -/

theorem getLsbD_lowByteMask (i : Nat) : (0xFF : Word).getLsbD i = decide (i < 8) := Nat.testBit_two_pow_sub_one 8 i

/-- A mask and its complement split a value in two parts. -/
theorem and_xor_and_not (v m : Word) : (v &&& m) ^^^ (v &&& ~~~m) = v := by
  ext i hi
  rw [BitVec.getElem_xor, BitVec.getElem_and, BitVec.getElem_and, BitVec.getElem_not, ← Bool.and_xor_distrib_left,
    Bool.xor_not_self, Bool.and_true]

/-- The byte that enters lies in the low 8 bits: above them stands the accumulator. -/
theorem absorbed_rest_shifted (c : Word) (x : Byte) :
    ((c ^^^ x.setWidth 32) &&& ~~~0xFF) >>> 8 = c >>> 8 := by
  apply BitVec.eq_of_getLsbD_eq
  intro i hi
  have hx : x.getLsbD (8 + i) = false := BitVec.getLsbD_of_ge x _ (by omega)
  have hm : (0xFF : Word).getLsbD (8 + i) = false := by rw [getLsbD_lowByteMask]; exact decide_eq_false (by omega)
  simp only [BitVec.getLsbD_ushiftRight, BitVec.getLsbD_and, BitVec.getLsbD_xor, BitVec.getLsbD_not,
    BitVec.getLsbD_setWidth, hx, hm]
  by_cases h : 8 + i < 32
  · simp [h]
  · simp [h, BitVec.getLsbD_of_ge c (8 + i) (by omega)]

/-- Absorbing a byte by the table (44_crc_frame.md R185). -/
theorem crcAbsorb_eq_table (c : Word) (x : Byte) :
    crcAbsorb c x = crcShifts 8 ((c ^^^ x.setWidth 32) &&& 0xFF) ^^^ (c >>> 8) := by
  have hlow : ∀ i < 8, ((c ^^^ x.setWidth 32) &&& ~~~0xFF).getLsbD i = false := fun i hi => by
    rw [BitVec.getLsbD_and, BitVec.getLsbD_not, getLsbD_lowByteMask, decide_eq_true hi, Bool.not_true, Bool.and_false,
      Bool.and_false]
  calc crcAbsorb c x
      = crcShifts 8 (((c ^^^ x.setWidth 32) &&& 0xFF) ^^^ ((c ^^^ x.setWidth 32) &&& ~~~0xFF)) := by
        rw [and_xor_and_not, crcAbsorb]
    _ = crcShifts 8 ((c ^^^ x.setWidth 32) &&& 0xFF) ^^^ (((c ^^^ x.setWidth 32) &&& ~~~0xFF) >>> 8) :=
        crcShifts_xor_of_low_zero 8 _ _ hlow
    _ = crcShifts 8 ((c ^^^ x.setWidth 32) &&& 0xFF) ^^^ (c >>> 8) := by rw [absorbed_rest_shifted]

theorem crcAbsorb_injective_left (x : Byte) : Function.Injective (crcAbsorb · x) := fun _ _ h =>
  (BitVec.xor_left_inj _).mp (crcShifts_injective 8 _ _ h)

theorem crcAbsorb_injective_right (c : Word) : Function.Injective (crcAbsorb c) := fun x y h => by
  have hword : x.setWidth 32 = y.setWidth 32 := (BitVec.xor_right_inj c).mp (crcShifts_injective 8 _ _ h)
  simpa using congrArg (BitVec.setWidth 8) hword

theorem crcAbsorbAll_injective (bs : List Byte) : Function.Injective (crcAbsorbAll · bs) := by
  induction bs with
  | nil => exact Function.injective_id
  | cons x xs ih => exact ih.comp (crcAbsorb_injective_left x)

theorem crcFinish_injective : Function.Injective crcFinish := fun _ _ h => (BitVec.xor_left_inj _).mp h

/-- Two strings that differ in at most one place have equal checksums only when they are equal: everything after the
place is injective in the accumulator, and the accumulator after the place is injective in the byte. -/
theorem eq_of_crc32Of_eq {a b : List Byte} {x y : Byte} (h : crc32Of (a ++ x :: b) = crc32Of (a ++ y :: b)) :
    x = y := by
  have hall := crcFinish_injective h
  rw [crcAbsorbAll_append, crcAbsorbAll_append] at hall
  exact crcAbsorb_injective_right _ (crcAbsorbAll_injective b hall)

/-! ### The statements -/

/-- Settles O41: the low byte of `CRC ^ x` goes through the table, the rest, which `x` does not reach, is shifted. -/
theorem checksumUpdateIsTheTableForm : Obligations.ChecksumUpdateIsTheTableForm := by
  unfold Obligations.ChecksumUpdateIsTheTableForm
  refine ⟨fun x s => ?_, crcShift_eq_half, crcShifts_add, fun _ => rfl, by decide⟩
  rw [exec_crc32Upd, crcAbsorb_eq_table]

/-- Settles O42: absorbing a longer string is absorbing the string and then the byte. -/
theorem checksumAbsorbsByteByByte : Obligations.ChecksumAbsorbsByteByByte := by
  unfold Obligations.ChecksumAbsorbsByteByByte
  refine ⟨fun s => exec_crc32 [] s, fun bs x s =>
    ⟨_, _, _, exec_crc32 bs s, exec_crc32Upd x _, exec_crc32Fin _, ?_⟩⟩
  rw [exec_crc32, crc32Of, crcAbsorbAll_append]
  rfl

/-- Settles O43: the answers are the checksums of the two strings, which tell their bytes apart. -/
theorem checksumSeesEveryByte : Obligations.ChecksumSeesEveryByte := by
  unfold Obligations.ChecksumSeesEveryByte
  intro a b x y s t t' ht ht' hres
  cases (exec_crc32 (a ++ x :: b) s).symm.trans ht
  cases (exec_crc32 (a ++ y :: b) s).symm.trans ht'
  exact eq_of_crc32Of_eq (Result.word.inj hres)

/-- Settles O44: `chunk_spec` is the next state, `chunk_out` the appended bytes; within `CHUNK_MAX` the length fits the
32 bits of its field. -/
theorem chunkAppendsItsFrame : Obligations.ChunkAppendsItsFrame := by
  unfold Obligations.ChunkAppendsItsFrame
  refine ⟨fun tag data s hfits hout => ?_, fun tag data s hlong =>
    (exec_chunk tag data s).trans (chunk_refused tag data s hlong)⟩
  have hlen : (BitVec.ofNat 32 data.length).toNat = data.length := by
    rw [BitVec.toNat_ofNat]
    exact Nat.mod_eq_of_lt (by omega)
  refine ⟨_, _, be32 (BitVec.ofNat 32 data.length), be32 (crc32Of (tag.bytes ++ data)), crc32Of (tag.bytes ++ data),
    (exec_chunk tag data s).trans (chunk_spec tag data s hfits), ?_, length_be32 _, (beNat_be32 _).trans hlen,
    length_be32 _, beNat_be32 _, fun s' => ⟨_, exec_crc32 _ s', rfl⟩⟩
  rw [(chunk_out hout tag data).2, chunkFrame]
  simp only [List.append_assoc]

/-- Settles O39: the four bytes are the digits of the operand. -/
theorem bigEndianSerialises : Obligations.BigEndianSerialises := by
  unfold Obligations.BigEndianSerialises
  exact fun v s => ⟨_, _, _, _, exec_be32 v s, toNat_eq_bigEndianBytes v⟩

/-- Settles O40: the start value is all ones, and inverting subtracts from it. -/
theorem checksumStartsAndFinishesInverted : Obligations.ChecksumStartsAndFinishesInverted := by
  unfold Obligations.ChecksumStartsAndFinishesInverted
  refine ⟨fun s => ⟨crcStart, exec_crc32Init s, rfl⟩, fun s => ⟨crcFinish s.crc, exec_crc32Fin s, ?_⟩⟩
  rw [crcFinish_eq_not, BitVec.toNat_not]

end Sys2Proof.Machine
end

-- ==== Proofs: the file encoder (45_file_encoder.md) ====
section
/-! The encoder phase by phase, the whole `ENCFILE` composed of them, and the file it writes against its reader. -/

namespace Sys2Proof.Machine

/-! ### What the operations answer -/

theorem exec_encValidate (s : State) : exec .encValidate s = encValidate s := rfl

theorem exec_sig (s : State) :
    exec .sig s = .next { s with phase := .sig, out := s.out.append signature } := rfl

theorem exec_ihdr (s : State) :
    exec .ihdr s = chunk Tag.ihdr (headerData s.w s.h) { s with phase := .ihdr } := rfl

theorem exec_scan (s : State) : exec .scan s = scan s := rfl

theorem exec_compress (s : State) :
    exec .compress s =
      .next { s with phase := .compress, z := Memory.ofBytes (Config.compress s.scan.bytes) } := rfl

theorem exec_idat (s : State) : exec .idat s = chunk Tag.idat s.z.bytes { s with phase := .idat } := rfl

theorem exec_iend (s : State) : exec .iend s = chunk Tag.iend [] { s with phase := .iend } := rfl

theorem exec_encfile (w h : Half) (blen : Nat) (s : State) :
    exec (.encfile w h blen) s = runEncfile (presentEncfile w h blen s) := rfl

/-! ### The fixed chunks -/

/-- A 16-bit dimension fills the two low bytes of its big-endian field (30_encoding.md R95). -/
theorem be32_of_half (v : Half) :
    be32 (v.setWidth 32) = [0x00, 0x00, v.extractLsb' 8 8, v.extractLsb' 0 8] := by
  have hv := v.isLt
  have hbyte : ∀ i, (v.setWidth 32).extractLsb' i 8 = v.extractLsb' i 8 := fun i => by
    apply BitVec.eq_of_toNat_eq
    rw [BitVec.extractLsb'_toNat, BitVec.extractLsb'_toNat, BitVec.toNat_setWidth_of_le (by decide)]
  have hhigh : ∀ i, 16 ≤ i → v.extractLsb' i 8 = 0 := fun i hi => by
    apply BitVec.eq_of_toNat_eq
    have hzero : v.toNat >>> i = 0 := Nat.shiftRight_eq_zero _ _ (hv.trans_le (Nat.pow_le_pow_right (by decide) hi))
    rw [BitVec.extractLsb'_toNat, hzero]
    rfl
  rw [be32, hbyte, hbyte, hbyte, hbyte, hhigh 24 (by decide), hhigh 16 (by decide)]

theorem toNat_half_eq_bytes (v : Half) :
    v.toNat = (v.extractLsb' 8 8).toNat * 256 + (v.extractLsb' 0 8).toNat := by
  have hv := v.isLt
  simp only [BitVec.extractLsb'_toNat, Nat.shiftRight_eq_div_pow]
  omega

@[simp] theorem length_headerData (w h : Half) : (headerData w h).length = 13 := rfl

theorem headerData_eq (w h : Half) :
    headerData w h = [0x00, 0x00, w.extractLsb' 8 8, w.extractLsb' 0 8, 0x00, 0x00, h.extractLsb' 8 8,
      h.extractLsb' 0 8, 0x08, 0x06, 0x00, 0x00, 0x00] := by
  rw [headerData, be32_of_half, be32_of_half]
  rfl

theorem chunkFits_of_lt {n : Nat} (s : State) (h : n < 2 ^ 31) : s.ChunkFits n := .inl h

/-- The 21 bytes of the header chunk before its checksum (30_encoding.md R92, R95). -/
theorem chunkFrame_ihdr (w h : Half) :
    chunkFrame Tag.ihdr (headerData w h) =
      [0x00, 0x00, 0x00, 0x0D, 0x49, 0x48, 0x44, 0x52, 0x00, 0x00, w.extractLsb' 8 8, w.extractLsb' 0 8, 0x00, 0x00,
        h.extractLsb' 8 8, h.extractLsb' 0 8, 0x08, 0x06, 0x00, 0x00, 0x00] ++
      be32 (crc32Of (Tag.ihdr.bytes ++ headerData w h)) := by
  have hlen : be32 (BitVec.ofNat 32 13) = [0x00, 0x00, 0x00, 0x0D] := by decide
  rw [chunkFrame, length_headerData, hlen]
  congr 1
  rw [headerData_eq]
  rfl

/-- The 12 bytes of the terminator chunk (30_encoding.md R94). -/
theorem chunkFrame_iend :
    chunkFrame Tag.iend [] = [0x00, 0x00, 0x00, 0x00, 0x49, 0x45, 0x4E, 0x44, 0xAE, 0x42, 0x60, 0x82] := by
  decide +kernel

/-- A chunk within `CHUNK_MAX`, as what it appends to `OUT`. -/
theorem chunk_appends {tag : Tag} {data : List Byte} {s : State} (hfits : s.ChunkFits data.length)
    (hout : s.out.wf = true) :
    ∃ c m, chunk tag data s = .next { s with tag := tag, dlen := BitVec.ofNat 32 data.length, crc := c, out := m } ∧
      m.wf = true ∧ m.bytes = s.out.bytes ++ chunkFrame tag data :=
  ⟨_, _, chunk_spec tag data s hfits, chunk_out hout tag data⟩

/-! ### Scanlines -/

/-- The bytes of an image of `h` rows of `w` pixels, row by row (20_memory.md R52). -/
theorem Memory.length_bytes_rows {m : Memory} {w h : Nat} (hs : m.size = w * h * 4) : m.bytes.length = h * (w * 4) := by
  rw [Memory.length_bytes, hs]
  ring

/-- `SCAN` of an image with rows: the scanline stream, with `ROW` at the last row. -/
theorem scan_spec {s : State} (hh : s.h ≠ 0) (hs : s.img.size = s.w.toNat * s.h.toNat * 4) :
    ∃ m, scan s = .next { s with phase := .scan, row := s.h - 1, scan := m } ∧ m.wf = true ∧
      m.bytes = scanlines (s.w.toNat * 4) s.h.toNat s.img.bytes := by
  have hpos : s.h.toNat ≠ 0 := fun h0 => hh (BitVec.eq_of_toNat_eq h0)
  have hlast : BitVec.ofNat 16 (0 + s.h.toNat - 1) = s.h - 1 := by
    apply BitVec.eq_of_toNat_eq
    have hlt := s.h.isLt
    rw [BitVec.toNat_sub, BitVec.toNat_ofNat]
    show _ = (2 ^ 16 - 1 + s.h.toNat) % 2 ^ 16
    omega
  have hrows : (0 + s.h.toNat) * (s.w.toNat * 4) ≤ s.img.size := by
    rw [hs]
    exact le_of_eq (by ring)
  obtain ⟨m, hrun, hwf, hbytes⟩ :=
    scanRows_spec s.h.toNat 0 { enterPhase .scan s with scan := Memory.empty } rfl hrows
  rw [if_neg hpos, hlast] at hrun
  exact ⟨m, hrun, hwf, by simpa using hbytes⟩

/-- The stream from record `y` on is the stream of the rows from `y` on. -/
theorem drop_scanlines (n rows : Nat) : ∀ (y : Nat) (bs : List Byte), bs.length = (y + rows) * n →
    (scanlines n (y + rows) bs).drop (y * (1 + n)) = scanlines n rows (bs.drop (y * n))
  | 0, bs, _ => by simp
  | y + 1, bs, hlen => by
    have hbs : bs.length = (y + rows) * n + n := by rw [hlen]; ring
    have hrec : (0 :: bs.take n).length = 1 + n := by simp; omega
    have hrest := drop_scanlines n rows y (bs.drop n) (by simp; omega)
    calc (scanlines n (y + 1 + rows) bs).drop ((y + 1) * (1 + n))
        = ((0 :: bs.take n) ++ scanlines n (y + rows) (bs.drop n)).drop ((0 :: bs.take n).length + y * (1 + n)) := by
          rw [hrec, Nat.add_right_comm, scanlines]
          congr 1
          ring
      _ = (scanlines n (y + rows) (bs.drop n)).drop (y * (1 + n)) := List.drop_length_add_append _
      _ = scanlines n rows (bs.drop ((y + 1) * n)) := by
          rw [hrest, List.drop_drop]
          congr 2
          ring

/-- Record `y` of the stream: the filter-type byte, then the bytes of row `y` (45_file_encoder.md R203). -/
theorem scanlines_record {n rows y : Nat} {bs : List Byte} (hlen : bs.length = rows * n) (hy : y < rows) :
    (scanlines n rows bs).getD (y * (1 + n)) 0 = 0 ∧
    ∀ k, k < n → (scanlines n rows bs).getD (y * (1 + n) + 1 + k) 0 = bs.getD (y * n + k) 0 := by
  obtain ⟨r, rfl⟩ : ∃ r, rows = y + (r + 1) := ⟨rows - y - 1, by omega⟩
  have hdrop := drop_scanlines n (r + 1) y bs hlen
  have hread : ∀ j, (scanlines n (y + (r + 1)) bs).getD (y * (1 + n) + j) 0 =
      (scanlines n (r + 1) (bs.drop (y * n))).getD j 0 := fun j => by
    rw [← hdrop, List.getD_eq_getElem?_getD, List.getD_eq_getElem?_getD, List.getElem?_drop]
  refine ⟨hread 0, fun k hk => ?_⟩
  have hrow : k < ((bs.drop (y * n)).take n).length := by
    have : (y + (r + 1)) * n = y * n + n + r * n := by ring
    simp
    omega
  rw [Nat.add_assoc, hread, Nat.add_comm 1 k]
  simp only [scanlines, List.cons_append, List.getD_eq_getElem?_getD, List.getElem?_cons_succ]
  rw [List.getElem?_append_left hrow, List.getElem?_take_of_lt hk, List.getElem?_drop]

/-! ### The compressor -/

/-- All that is assumed of `COMPRESS`: it is lossless (45_file_encoder.md R204; log 9). -/
theorem compress_injective : Function.Injective Config.compress := Config.compressor.injective

/-! ### `ENCFILE` -/

/-- The registers that the phases of the encoder write (45_file_encoder.md R201 to R206). -/
structure EncoderRegs where
  phase : Phase
  row : Half
  tag : Tag
  dlen : Word
  crc : Word
  scan : Memory
  z : Memory
  out : Memory

/-- A state with the encoder's registers `r`. -/
def State.withEncoder (s : State) (r : EncoderRegs) : State :=
  { s with
    phase := r.phase, row := r.row, tag := r.tag, dlen := r.dlen, crc := r.crc, scan := r.scan, z := r.z
    out := r.out }

/-- The encoder's registers of a state. -/
def State.encoder (s : State) : EncoderRegs := ⟨s.phase, s.row, s.tag, s.dlen, s.crc, s.scan, s.z, s.out⟩

theorem State.withEncoder_encoder (s : State) : s.withEncoder s.encoder = s := rfl

theorem State.encoder_out (s : State) : s.encoder.out = s.out := rfl

theorem sig_withEncoder (s : State) (r : EncoderRegs) :
    sig (s.withEncoder r) = s.withEncoder { r with phase := .sig, out := r.out.append signature } := rfl

theorem compress_withEncoder (s : State) (r : EncoderRegs) :
    compress (s.withEncoder r) =
      s.withEncoder { r with phase := .compress, z := Memory.ofBytes (Config.compress r.scan.bytes) } := rfl

theorem completeEncfile_withEncoder (s : State) (r : EncoderRegs) :
    completeEncfile (s.withEncoder r) = (completeEncfile s).withEncoder { r with phase := .done } := rfl

/-- A phase that frames a chunk within `CHUNK_MAX`, on the encoder's registers. -/
theorem chunk_withEncoder {tag : Tag} {data : List Byte} {s : State} (hfits : s.ChunkFits data.length)
    {r : EncoderRegs} (hout : r.out.wf = true) (p : Phase) :
    ∃ c m, chunk tag data (enterPhase p (s.withEncoder r)) =
        .next (s.withEncoder
          { r with phase := p, tag := tag, dlen := BitVec.ofNat 32 data.length, crc := c, out := m }) ∧
      m.wf = true ∧ m.bytes = r.out.bytes ++ chunkFrame tag data :=
  chunk_appends (s := s.withEncoder { r with phase := p }) hfits hout

theorem ihdr_withEncoder (s : State) {r : EncoderRegs} (hout : r.out.wf = true) :
    ∃ c m, ihdr (s.withEncoder r) =
        .next (s.withEncoder { r with phase := .ihdr, tag := Tag.ihdr, dlen := 13, crc := c, out := m }) ∧
      m.wf = true ∧ m.bytes = r.out.bytes ++ chunkFrame Tag.ihdr (headerData s.w s.h) :=
  chunk_withEncoder (data := headerData s.w s.h) (chunkFits_of_lt s (by rw [length_headerData]; decide)) hout .ihdr

theorem iend_withEncoder (s : State) {r : EncoderRegs} (hout : r.out.wf = true) :
    ∃ c m, iend (s.withEncoder r) =
        .next (s.withEncoder { r with phase := .iend, tag := Tag.iend, dlen := 0, crc := c, out := m }) ∧
      m.wf = true ∧ m.bytes = r.out.bytes ++ chunkFrame Tag.iend [] :=
  chunk_withEncoder (data := []) (chunkFits_of_lt s (Nat.two_pow_pos 31)) hout .iend

theorem scan_withEncoder {s : State} (hh : s.h ≠ 0) (hs : s.img.size = s.w.toNat * s.h.toNat * 4)
    (r : EncoderRegs) :
    ∃ m, scan (s.withEncoder r) = .next (s.withEncoder { r with phase := .scan, row := s.h - 1, scan := m }) ∧
      m.bytes = scanlines (s.w.toNat * 4) s.h.toNat s.img.bytes := by
  obtain ⟨m, hrun, -, hm⟩ := scan_spec (s := s.withEncoder r) hh hs
  exact ⟨m, hrun, hm⟩

/-- The phases up to the pixel-data chunk: `OUT` has got the signature and the header chunk, `Z` holds the compressed
scanlines. -/
theorem encodePhases_to_idat {s : State} (hh : s.h ≠ 0) (hs : s.img.size = s.w.toNat * s.h.toNat * 4)
    {r : EncoderRegs} (hout : r.out.wf = true) :
    ∃ r' : EncoderRegs,
      encodePhases (s.withEncoder r) =
        andThen (idat (s.withEncoder r')) (fun t => andThen (iend t) fun u => .next (completeEncfile u)) ∧
      r'.row = s.h - 1 ∧ r'.scan.bytes = scanlines (s.w.toNat * 4) s.h.toNat s.img.bytes ∧
      r'.z.bytes = Config.compress r'.scan.bytes ∧ r'.out.wf = true ∧
      r'.out.bytes = r.out.bytes ++ signature ++ chunkFrame Tag.ihdr (headerData s.w s.h) := by
  obtain ⟨c, m, hihdr, hwf, hm⟩ := ihdr_withEncoder s
    (r := { r with phase := .sig, out := r.out.append signature }) (Memory.wf_append hout _)
  obtain ⟨sc, hscan, hsc⟩ := scan_withEncoder hh hs
    { r with phase := .ihdr, tag := Tag.ihdr, dlen := 13, crc := c, out := m }
  refine ⟨⟨.compress, s.h - 1, Tag.ihdr, 13, c, sc, Memory.ofBytes (Config.compress sc.bytes), m⟩, ?_, rfl, hsc,
    Memory.bytes_ofBytes _, hwf, hm.trans (congrArg (· ++ _) (Memory.bytes_append hout _))⟩
  rw [encodePhases, sig_withEncoder, hihdr, andThen_next, hscan, andThen_next, compress_withEncoder]

/-- The phases when the compressed scanlines fit a chunk: the file is appended to `OUT`. -/
theorem encodePhases_of_fits {s : State} (hh : s.h ≠ 0) (hs : s.img.size = s.w.toNat * s.h.toNat * 4)
    (hout : s.out.wf = true)
    (hfits : s.ChunkFits (Config.compress (scanlines (s.w.toNat * 4) s.h.toNat s.img.bytes)).length) :
    ∃ (m sc z : Memory) (c : Word),
      encodePhases s = .next ((completeEncfile s).withEncoder
        { phase := .done, row := s.h - 1, tag := Tag.iend, dlen := 0, crc := c, scan := sc, z := z, out := m }) ∧
      sc.bytes = scanlines (s.w.toNat * 4) s.h.toNat s.img.bytes ∧ z.bytes = Config.compress sc.bytes ∧
      m.bytes = s.out.bytes ++ fileBytes s.w s.h z.bytes := by
  obtain ⟨r, hrun, hrow, hsc, hz, hwf, hr⟩ := encodePhases_to_idat hh hs (r := s.encoder) hout
  rw [s.withEncoder_encoder] at hrun
  rw [← hsc, ← hz] at hfits
  obtain ⟨c, m, hidat, hwf', hm⟩ := chunk_withEncoder (tag := Tag.idat) hfits hwf .idat
  obtain ⟨c', m', hiend, -, hm'⟩ := iend_withEncoder s
    (r := { r with phase := .idat, tag := Tag.idat, dlen := BitVec.ofNat 32 r.z.bytes.length, crc := c, out := m }) hwf'
  have hidat' : idat (s.withEncoder r) = _ := hidat
  refine ⟨m', r.scan, r.z, c', ?_, hsc, hz, ?_⟩
  · rw [hrun, hidat', andThen_next, hiend, andThen_next, completeEncfile_withEncoder, hrow]
  · rw [hm', hm, hr, s.encoder_out, fileBytes]
    simp only [List.append_assoc]

/-- The phases when the compressed scanlines do not fit a chunk (44_crc_frame.md R187). -/
theorem encodePhases_of_long {s : State} (hh : s.h ≠ 0) (hs : s.img.size = s.w.toNat * s.h.toNat * 4)
    (hout : s.out.wf = true)
    (hlong : ¬ s.ChunkFits (Config.compress (scanlines (s.w.toNat * 4) s.h.toNat s.img.bytes)).length) :
    encodePhases s = .refused .chunkTooLong := by
  obtain ⟨r, hrun, -, hsc, hz, -⟩ := encodePhases_to_idat hh hs (r := s.encoder) hout
  rw [s.withEncoder_encoder] at hrun
  rw [← hsc, ← hz] at hlong
  have hidat : idat (s.withEncoder r) = .refused .chunkTooLong := chunk_refused _ _ _ hlong
  rw [hrun, hidat, andThen_refused]

/-- `ENCFILE` on valid operands is its phases from an empty `OUT` on. -/
theorem exec_encfile_of_valid {w h : Half} (hw : w ≠ 0) (hh : h ≠ 0) (s : State) :
    exec (.encfile w h (w.toNat * h.toNat * 4)) s =
      encodePhases (beginEncfile (presentEncfile w h (w.toNat * h.toNat * 4) s)) :=
  (exec_encfile w h _ s).trans <| (runEncfile_eq _).trans <|
    (if_neg (not_not.mpr rfl)).trans (if_neg (not_or.mpr ⟨hw, hh⟩))

/-! ### The file and its reader -/

@[simp] theorem length_fileBytes (w h : Half) (z : List Byte) : (fileBytes w h z).length = 57 + z.length := by
  simp only [fileBytes, List.length_append, length_chunkFrame, length_headerData, List.length_nil]
  show 8 + _ + _ + _ = _
  omega

/-- The layout of a file: where the reader cuts it (30_encoding.md R94). -/
theorem fileBytes_layout (w h : Half) (z : List Byte) :
    (fileBytes w h z).take 8 = signature ∧
    ((fileBytes w h z).drop 8).take 25 = chunkFrame Tag.ihdr (headerData w h) ∧
    ((fileBytes w h z).drop 33).take ((fileBytes w h z).length - 45) = chunkFrame Tag.idat z ∧
    (fileBytes w h z).drop ((fileBytes w h z).length - 12) = chunkFrame Tag.iend [] := by
  have hsig : signature.length = 8 := rfl
  have hhead : (chunkFrame Tag.ihdr (headerData w h)).length = 25 := by simp
  have hsighead : (signature ++ chunkFrame Tag.ihdr (headerData w h)).length = 33 := by simp [hsig]
  have hdata : (chunkFrame Tag.idat z).length = (fileBytes w h z).length - 45 := by simp; omega
  have hfront : (signature ++ chunkFrame Tag.ihdr (headerData w h) ++ chunkFrame Tag.idat z).length =
      (fileBytes w h z).length - 12 := by simp [hsig]; omega
  refine ⟨?_, ?_, ?_, ?_⟩
  · rw [fileBytes, List.append_assoc, List.append_assoc, List.take_left' hsig]
  · rw [fileBytes, List.append_assoc, List.append_assoc, List.drop_left' hsig, List.take_left' hhead]
  · rw [← hdata, fileBytes, List.append_assoc, List.drop_left' hsighead, List.take_left' rfl]
  · rw [← hfront, fileBytes, List.drop_left' rfl]

theorem beNat_headerData (w h : Half) :
    beNat ((headerData w h).take 4) = w.toNat ∧ beNat (((headerData w h).drop 4).take 4) = h.toNat := by
  have hwide : ∀ v : Half, beNat (be32 (v.setWidth 32)) = v.toNat := fun v => by
    rw [beNat_be32, BitVec.toNat_setWidth_of_le (by decide)]
  exact ⟨hwide w, hwide h⟩

/-- Reading undoes writing for format FILE (30_encoding.md R94, R95). -/
theorem decodeFile_fileBytes (w h : Half) {z : List Byte} (hz : z.length < 2 ^ 32) :
    decodeFile (fileBytes w h z) = some ⟨w.toNat, h.toNat, z⟩ := by
  obtain ⟨hsig, hhead, hdata, hend⟩ := fileBytes_layout w h z
  obtain ⟨hw, hh⟩ := beNat_headerData w h
  have hparts : (headerData w h).drop 8 = [8, 6, 0, 0, 0] := rfl
  rw [decodeFile, hhead, hdata, hend, decodeChk_chunkFrame _ _ (by rw [length_headerData]; decide),
    decodeChk_chunkFrame _ _ hz, decodeChk_chunkFrame Tag.iend [] (Nat.two_pow_pos 32)]
  refine (if_pos hsig).trans ?_
  simp only [hparts, hw, hh, and_self, if_true]

/-! ### The statements -/

/-- Settles O50: the phases, run from an empty `OUT`. -/
theorem encodeFileWritesTheFile : Obligations.EncodeFileWritesTheFile := by
  unfold Obligations.EncodeFileWritesTheFile
  intro w h s hw hh hs
  rw [exec_encfile_of_valid hw hh]
  split
  · next hfits =>
    obtain ⟨m, sc, z, c, hrun, hsc, hz, hm⟩ := encodePhases_of_fits
      (s := beginEncfile (presentEncfile w h (w.toNat * h.toNat * 4) s)) hh hs rfl hfits
    have hfile : m.bytes = fileBytes w h z.bytes := hm
    exact ⟨m, sc, z, c, hrun, hsc, hz, hfile, by rw [hfile, length_fileBytes]⟩
  · next hlong =>
    exact encodePhases_of_long (s := beginEncfile (presentEncfile w h (w.toNat * h.toNat * 4) s)) hh hs rfl hlong

/-- Settles O51: `decodeFile_fileBytes` takes apart the file that `ENCFILE` writes, and dropping the filter bytes undoes
the scanlines. -/
theorem fileRoundTripReproducesTheImage : Obligations.FileRoundTripReproducesTheImage := by
  unfold Obligations.FileRoundTripReproducesTheImage
  intro w h s hw hh hs
  have hfile := encodeFileWritesTheFile w h s hw hh hs
  split at hfile
  · next hfits =>
    obtain ⟨m, sc, z, c, hrun, hsc, hz, hm, -⟩ := hfile
    rw [hrun]
    rw [← hsc, ← hz] at hfits
    refine ⟨z.bytes, ?_, fun inflate hinv => ?_⟩
    · show decodeFile m.bytes = _
      rw [hm, decodeFile_fileBytes w h (by omega)]
    · rw [hz, hinv, hsc, dropFilterBytes_scanlines _ _ _ (Memory.length_bytes_rows hs)]
  · rw [hfile]

/-- Settles O46: the signature is appended as it is, the two chunks as their frames, written out. -/
theorem fixedPartsOfTheFile : Obligations.FixedPartsOfTheFile := by
  unfold Obligations.FixedPartsOfTheFile
  intro s hout
  refine ⟨⟨_, exec_sig s, Memory.bytes_append hout _⟩, ?_, ?_⟩
  · obtain ⟨c, m, hrun, -, hm⟩ := chunk_appends (tag := Tag.ihdr) (data := headerData s.w s.h)
      (s := { s with phase := .ihdr }) (chunkFits_of_lt _ (by rw [length_headerData]; decide)) hout
    refine ⟨m, c, s.w.extractLsb' 8 8, s.w.extractLsb' 0 8, s.h.extractLsb' 8 8, s.h.extractLsb' 0 8,
      be32 (crc32Of (Tag.ihdr.bytes ++ headerData s.w s.h)), (exec_ihdr s).trans hrun, ?_,
      toNat_half_eq_bytes s.w, toNat_half_eq_bytes s.h, length_be32 _, ?_⟩
    · rw [exec_ihdr, exec_chunk, headerData_eq]
    · rw [hm, chunkFrame_ihdr, List.append_assoc s.out.bytes]
  · obtain ⟨c, m, hrun, -, hm⟩ := chunk_appends (tag := Tag.iend) (data := [])
      (s := { s with phase := .iend }) (chunkFits_of_lt _ (Nat.two_pow_pos 31)) hout
    exact ⟨m, c, (exec_iend s).trans hrun, hm.trans (congrArg _ chunkFrame_iend)⟩

/-- Settles O47: `scan_spec` gives the stream, `scanlines_record` its bytes. -/
theorem scanlinesAreTheFilteredRows : Obligations.ScanlinesAreTheFilteredRows := by
  unfold Obligations.ScanlinesAreTheFilteredRows
  intro s hh hs
  obtain ⟨m, hrun, -, hm⟩ := scan_spec hh hs
  have hlen := Memory.length_bytes_rows hs
  have hsize : m.size = s.h.toNat * (1 + s.w.toNat * 4) := by
    rw [← Memory.length_bytes, hm, length_scanlines _ _ _ hlen, Nat.add_comm 1]
  refine ⟨m, (exec_scan s).trans hrun, hsize, fun y hy => ?_⟩
  obtain ⟨hfilter, hrow⟩ := scanlines_record hlen hy
  have hend : (y + 1) * (1 + s.w.toNat * 4) ≤ m.size := hsize ▸ Nat.mul_le_mul_right _ hy
  rw [Nat.succ_mul] at hend
  refine ⟨by rw [← Memory.bytes_getD m _ (by omega), hm, hfilter], fun k hk => ?_⟩
  have himg : (y + 1) * (s.w.toNat * 4) ≤ s.img.size := by
    rw [← Memory.length_bytes, hlen]
    exact Nat.mul_le_mul_right _ hy
  rw [Nat.succ_mul] at himg
  rw [← Memory.bytes_getD m _ (by omega), hm, hrow k hk, Memory.bytes_getD _ _ (by omega), Nat.mul_assoc]

/-- Settles O48: an injective compressor has a left inverse, and `IDAT` is the chunk of `Z` (O44). -/
theorem pixelDataIsCompressedIntoOneChunk : Obligations.PixelDataIsCompressedIntoOneChunk := by
  unfold Obligations.PixelDataIsCompressedIntoOneChunk
  constructor
  · obtain ⟨inflate, hinv⟩ := compress_injective.hasLeftInverse
    exact ⟨inflate, fun s => ⟨_, exec_compress s, Memory.bytes_ofBytes _, by rw [Memory.bytes_ofBytes, hinv]⟩⟩
  · intro s hout hfits
    rw [← Memory.length_bytes s.z] at hfits ⊢
    obtain ⟨c, m, len, crc, k, hrun, hrest⟩ :=
      chunkAppendsItsFrame.1 Tag.idat s.z.bytes { s with phase := .idat } hfits hout
    exact ⟨m, c, len, crc, k, (exec_idat s).trans hrun, hrest⟩

/-- Settles O45: the three cases of `ENC.VALIDATE` exclude each other. -/
theorem encoderValidatesTheLength : Obligations.EncoderValidatesTheLength := by
  unfold Obligations.EncoderValidatesTheLength
  intro s
  rw [exec_encValidate]
  rcases encValidate_cases s with ⟨hlen, he⟩ | ⟨hlen, hzero, he⟩ | ⟨hlen, hw, hh, he⟩ <;> rw [he]
  · exact ⟨fun _ => rfl, fun h => absurd h hlen, fun h => absurd h hlen⟩
  · exact ⟨fun h => absurd hlen h, fun _ _ => rfl, fun _ hw hh => absurd hzero (not_or.mpr ⟨hw, hh⟩)⟩
  · exact ⟨fun h => absurd hlen h, fun _ hzero => absurd hzero (not_or.mpr ⟨hw, hh⟩), fun _ _ _ => rfl⟩

end Sys2Proof.Machine
end

-- ==== Proofs: the whole conversion (45_file_encoder.md R211, 30_encoding.md R97) ====
section
/-! `DECIMG` never reads `OUT`, so the one inside `CONVERT` is the one the host starts; `ENCFILE` empties `OUT`
itself. -/

namespace Sys2Proof.Machine

/-! ### Another `OUT` -/

/-- A state with another `OUT`. -/
def withOut (m : Memory) (s : State) : State := { s with out := m }

section
variable (m : Memory) (s : State)

@[simp] theorem withOut_fmt : (withOut m s).fmt = s.fmt := rfl
@[simp] theorem withOut_w : (withOut m s).w = s.w := rfl
@[simp] theorem withOut_h : (withOut m s).h = s.h := rfl
@[simp] theorem withOut_plen : (withOut m s).plen = s.plen := rfl
@[simp] theorem withOut_status : (withOut m s).status = s.status := rfl
@[simp] theorem withOut_br : (withOut m s).br = s.br := rfl
@[simp] theorem withOut_bc : (withOut m s).bc = s.bc := rfl
@[simp] theorem withOut_bprow : (withOut m s).bprow = s.bprow := rfl
@[simp] theorem withOut_bpcol : (withOut m s).bpcol = s.bpcol := rfl
@[simp] theorem withOut_stride : (withOut m s).stride = s.stride := rfl
@[simp] theorem withOut_blkIdx : (withOut m s).blkIdx = s.blkIdx := rfl
@[simp] theorem withOut_patch : (withOut m s).patch = s.patch := rfl
@[simp] theorem withOut_pay : (withOut m s).pay = s.pay := rfl
@[simp] theorem withOut_img : (withOut m s).img = s.img := rfl
@[simp] theorem withOut_blk : (withOut m s).blk = s.blk := rfl
@[simp] theorem withOut_config : (withOut m s).config = s.config := rfl

end

/-! ### Operations that do not read `OUT` -/

/-- An operation does the same whatever `OUT` holds, and leaves it. -/
def IgnoresOut (f : State → Host.Outcome State Fault Refusal) : Prop :=
  ∀ m s, f (withOut m s) = andThen (f s) fun u => .next (withOut m u)

theorem IgnoresOut.andThen {f g : State → Host.Outcome State Fault Refusal} (hf : IgnoresOut f) (hg : IgnoresOut g) :
    IgnoresOut fun s => andThen (f s) g := fun m s => by
  show Machine.andThen (f (withOut m s)) g = Machine.andThen (Machine.andThen (f s) g) _
  rw [hf, andThen_assoc, andThen_assoc]
  congr 1
  funext u
  exact hg m u

theorem stride_ignoresOut : IgnoresOut stride := fun m s => by
  unfold stride
  rw [withOut_fmt]
  cases s.fmt with
  | bc1 => rfl
  | bc3 => rfl
  | other n => rfl

theorem prepareDecimg_ignoresOut : IgnoresOut prepareDecimg := fun m s => by
  have hafter : IgnoresOut fun t => .next (startBlocks (imgInit t)) := fun _ _ => rfl
  exact stride_ignoresOut.andThen hafter m (grid s)

theorem blkFetch_ignoresOut : IgnoresOut blkFetch := fun m s => by
  unfold blkFetch
  rw [withOut_plen, withOut_blkIdx, withOut_stride, withOut_pay]
  split
  · rfl
  · cases s.pay.readBytes (s.blkIdx * s.stride.toNat) s.stride.toNat with
    | none => rfl
    | some bs => rfl

theorem bc1Dec_withOut (b : BitVec 64) (m : Memory) (s : State) :
    bc1Dec b (withOut m s) = withOut m (bc1Dec b s) := by
  rw [bc1Dec_eq b (withOut m s) s, congrArg (withOut m) (bc1Dec_eq b s s)]
  simp only [withOut]

theorem bc3Dec_withOut (b : BitVec 128) (m : Memory) (s : State) :
    bc3Dec b (withOut m s) = withOut m (bc3Dec b s) := by
  rw [bc3Dec_eq b (withOut m s) s rfl, congrArg (withOut m) (bc3Dec_eq b s s rfl)]
  simp only [withOut]

theorem dispatch_ignoresOut : IgnoresOut dispatch := fun m s => by
  unfold dispatch
  rw [withOut_blk, withOut_fmt]
  cases s.blk with
  | none => rfl
  | some bs =>
    cases s.fmt with
    | bc1 =>
      dsimp only
      split
      · rw [bc1Dec_withOut, andThen_next]
      · rfl
    | bc3 =>
      dsimp only
      split
      · rw [bc3Dec_withOut, andThen_next]
      · rfl
    | other n => rfl

theorem pixStore_ignoresOut : IgnoresOut pixStore := fun m s => by
  unfold pixStore
  rw [withOut_patch, withOut_br, withOut_bc, withOut_w, withOut_h, withOut_img]
  cases storePixels s.patch s.br.toNat s.bc.toNat s.w.toNat s.h.toNat (List.finRange 16) s.img with
  | none => rfl
  | some m' => rfl

theorem processBlock_ignoresOut : IgnoresOut processBlock :=
  blkFetch_ignoresOut.andThen fun m t => by
    rw [withOut_blk]
    split
    · rfl
    · exact dispatch_ignoresOut.andThen pixStore_ignoresOut m t

theorem blkNext_withOut (m : Memory) (s : State) : blkNext (withOut m s) = withOut m (blkNext s) := by
  unfold blkNext
  rw [withOut_bc, withOut_bprow, withOut_br, withOut_bpcol]
  split
  · rfl
  · split <;> rfl

theorem blockLoop_ignoresOut : ∀ n, IgnoresOut (blockLoop n)
  | 0 => fun _ _ => rfl
  | n + 1 => processBlock_ignoresOut.andThen fun m t => by
    rw [blkNext_withOut]
    exact blockLoop_ignoresOut n m (blkNext t)

theorem runDecimg_ignoresOut : IgnoresOut runDecimg := fun m s => by
  unfold runDecimg
  rw [withOut_config, withOut_fmt, withOut_w, withOut_h]
  cases validateError s.config.errOrder s.fmt s.w s.h with
  | some e => rfl
  | none =>
    have hloop : IgnoresOut fun t => blockLoop (t.bprow.toNat * t.bpcol.toNat) t := fun m t =>
      blockLoop_ignoresOut (t.bprow.toNat * t.bpcol.toNat) m t
    exact prepareDecimg_ignoresOut.andThen hloop m s

/-- `ENCFILE` begins with an empty `OUT`, whatever it held (45_file_encoder.md R207). -/
theorem runEncfile_withOut (m : Memory) (s : State) : runEncfile (withOut m s) = runEncfile s := by
  rw [runEncfile_eq, runEncfile_eq]
  rfl

/-! ### `CONVERT` -/

theorem runDecimg_of_error {s : State} {e : Status} (h : validateError s.config.errOrder s.fmt s.w s.h = some e) :
    runDecimg s = .next (raise e s) := by
  rw [runDecimg, h]

/-- The `DECIMG` inside `CONVERT` starts with an empty `OUT`; `ENCFILE` follows with `OK` only. -/
theorem exec_convert (f : FormatCode) (w h : Half) (plen : Nat) (s : State) :
    exec (.convert f w h plen) s =
      andThen (runDecimg (withOut Memory.empty (presentDecimg f w h plen s))) fun t =>
        if t.status = .ok then runEncfile (presentEncfile w h t.img.size t) else .next t := rfl

/-- A `CONVERT` whose `DECIMG` succeeds is `ENCFILE` on the state that the `DECIMG` alone leaves. -/
theorem exec_convert_of_ok {f : FormatCode} {w h : Half} {plen : Nat} {s t : State}
    (hrun : runDecimg (presentDecimg f w h plen s) = .next t) (hok : t.status = .ok) :
    exec (.convert f w h plen) s = exec (.encfile w h t.img.size) t := by
  rw [exec_convert, runDecimg_ignoresOut, hrun, andThen_next, andThen_next, withOut_status, if_pos hok]
  exact runEncfile_withOut Memory.empty (presentEncfile w h t.img.size t)

/-- A `CONVERT` whose `DECIMG` raises ends there, with an empty `OUT`. -/
theorem exec_convert_of_error {f : FormatCode} {w h : Half} {plen : Nat} {s : State} {e : Status}
    (he : validateError s.config.errOrder f w h = some e) :
    exec (.convert f w h plen) s = .next (raise e (withOut Memory.empty (presentDecimg f w h plen s))) := by
  have hne : e ≠ .ok := by
    rcases validateError_eq_some he with rfl | rfl
    · exact fun h => nomatch h
    · exact fun h => nomatch h
  rw [exec_convert, runDecimg_of_error (s := withOut Memory.empty (presentDecimg f w h plen s)) he, andThen_next,
    raise_status, if_neg hne]

theorem validateError_of_invalid (o : Config.ErrOrder) {f : FormatCode} {w h : Half}
    (hbad : f.unrecognised = true ∨ w = 0 ∨ h = 0) : ∃ e, validateError o f w h = some e := by
  refine Option.ne_none_iff_exists'.mp fun hnone => ?_
  obtain ⟨hf, hw, hh⟩ := validateError_eq_none.mp hnone
  rcases hbad with hbad | hbad | hbad
  · exact Bool.false_ne_true (hf.symm.trans hbad)
  · exact hw hbad
  · exact hh hbad

/-- A valid `DECIMG` ends with `OK` and an image of the operands' size, under the configuration it started with. -/
theorem runDecimg_ok {s : State} (hv : s.Validated) (hp : s.PayloadPresent) :
    ∃ t, runDecimg s = .next t ∧ t.status = .ok ∧ t.img.size = s.w.toNat * s.h.toNat * 4 ∧ t.config = s.config := by
  obtain ⟨v, t, hrun, -, hframe, hok, -, -, -, hsize, -⟩ := runDecimg_spec hv hp
  exact ⟨t, hrun, hok, hsize, hframe.config⟩

/-! ### The statements -/

/-- Settles O52: both formats are `DECIMG` on the presented operands, and what `CONVERT` does after it is the `ENCFILE`
of O50. -/
theorem convertIsDecodeThenEncode : Obligations.ConvertIsDecodeThenEncode := by
  unfold Obligations.ConvertIsDecodeThenEncode
  intro f i w h plen s hw hh hp hi
  have ⟨hf, hexec⟩ : f.unrecognised = false ∧ exec i s = runDecimg (presentDecimg f w h plen s) := by
    simp only [List.mem_cons, List.not_mem_nil, or_false, Prod.mk.injEq] at hi
    rcases hi with ⟨rfl, rfl⟩ | ⟨rfl, rfl⟩
    · exact ⟨rfl, rfl⟩
    · exact ⟨rfl, rfl⟩
  obtain ⟨t, hrun, hok, hsize, hconfig⟩ := runDecimg_ok (s := presentDecimg f w h plen s) ⟨hf, hw, hh⟩ hp
  rw [presentDecimg_w, presentDecimg_h] at hsize
  have hconvert := exec_convert_of_ok hrun hok
  rw [hsize] at hconvert
  have hfile := encodeFileWritesTheFile w h t hw hh hsize
  have hchunk : ∀ n, t.ChunkFits n ↔ s.ChunkFits n := fun n => by
    rw [State.ChunkFits, State.ChunkFits, hconfig, presentDecimg_config]
  refine ⟨t, hexec.trans hrun, hok, hsize, ?_⟩
  split
  · next hfits =>
    rw [if_pos ((hchunk _).mpr hfits)] at hfile
    obtain ⟨m, sc, z, c, hencode, hsc, hz, hm, -⟩ := hfile
    exact ⟨_, hconvert.trans hencode, hencode, rfl, rfl, by rw [← hsc, ← hz]; exact hm⟩
  · next hlong =>
    rw [if_neg (mt (hchunk _).mp hlong)] at hfile
    exact hconvert.trans hfile

/-- Settles O53: `VALIDATE` raises the same error in both commands, before anything but `OUT` and the operands is
written. -/
theorem convertErrorLeavesNoFile : Obligations.ConvertErrorLeavesNoFile := by
  unfold Obligations.ConvertErrorLeavesNoFile
  intro f w h plen s hbad
  obtain ⟨e, he⟩ := validateError_of_invalid s.config.errOrder hbad
  refine ⟨raise e (presentDecimg f w h plen s), _, ?_, exec_convert_of_error he, rfl, fun hw hh => ?_, fun hf => ?_,
    validateError_eq_some he, rfl, rfl, rfl, rfl, rfl, rfl⟩
  · have hdecimg := runDecimg_of_error (s := presentDecimg f w h plen s) he
    cases f with
    | bc1 => exact hdecimg
    | bc3 => exact hdecimg
    | other n => exact hdecimg
  · have hf : f.unrecognised = true := hbad.resolve_right (not_or.mpr ⟨hw, hh⟩)
    exact Option.some.inj (he.symm.trans (validateError_unrecognised _ hf hw hh))
  · have hzero : w = 0 ∨ h = 0 := hbad.resolve_left (ne_true_of_eq_false hf)
    exact Option.some.inj (he.symm.trans (validateError_zero _ hf hzero))

end Sys2Proof.Machine
end

-- ==== Proofs: commands on invalid operands (60_exceptions.md R221 to R228, R239) ====
section
/-! A command checks its operands before it writes anything else: its whole effect is the presented operands and what
the check answers. -/

namespace Sys2Proof.Machine

/-! ### `DECIMG` -/

/-- An unrecognised format raises whatever the dimensions are; a zero dimension beside it leaves the choice of the error
to `ERR_ORDER` (60_exceptions.md R221, R226). -/
theorem validateError_of_unrecognised (o : Config.ErrOrder) {f : FormatCode} (w h : Half) (hf : f.unrecognised = true) :
    ∃ e, validateError o f w h = some e ∧ (w ≠ 0 → h ≠ 0 → e = .unsupportedFormat) ∧
      (o = .formatFirst → e = .unsupportedFormat) ∧ (e = .unsupportedFormat ∨ e = .invalidDimensions) := by
  obtain ⟨e, he⟩ := validateError_of_invalid o (w := w) (h := h) (.inl hf)
  refine ⟨e, he, fun hw hh => ?_, fun ho => ?_, validateError_eq_some he⟩
  · exact Option.some.inj (he.symm.trans (validateError_unrecognised o hf hw hh))
  · subst ho
    exact Option.some.inj (he.symm.trans (validateError_formatFirst w h hf))

/-! ### `ENCFILE` -/

theorem runEncfile_of_badLength {s : State} (hlen : s.blen ≠ s.w.toNat * s.h.toNat * 4) :
    runEncfile s = .next (raise .bufferSizeMismatch (beginEncfile s)) := by
  rw [runEncfile_eq, if_pos hlen]

theorem runEncfile_of_zero {s : State} (hlen : s.blen = s.w.toNat * s.h.toNat * 4) (hz : s.w = 0 ∨ s.h = 0) :
    runEncfile s = .refused .zeroDimensionEncode := by
  rw [runEncfile_eq, if_neg (not_not.mpr hlen), if_pos hz]

/-! ### The statements -/

/-- Settles O28: `VALIDATE` raises on the presented operands, and raising writes `STATUS` and the engine's condition
alone. -/
theorem invalidImageOperandsAreReported : Obligations.InvalidImageOperandsAreReported := by
  unfold Obligations.InvalidImageOperandsAreReported
  refine ⟨fun n w h plen s => ?_, fun w h plen s hz => ⟨?_, ?_⟩⟩
  · obtain ⟨e, he, hcases⟩ := validateError_of_unrecognised s.config.errOrder (f := .other n) w h rfl
    exact ⟨e, runDecimg_of_error (s := presentDecimg (.other n) w h plen s) he, hcases⟩
  · exact runDecimg_of_error (s := presentDecimg .bc1 w h plen s) (validateError_zero _ rfl hz)
  · exact runDecimg_of_error (s := presentDecimg .bc3 w h plen s) (validateError_zero _ rfl hz)

/-- Settles O49: the length check on the presented operands, then the refusal of a zero dimension; before either, only
`OUT` and `PHASE` are set up. -/
theorem invalidFileOperandsAreTurnedAway : Obligations.InvalidFileOperandsAreTurnedAway := by
  unfold Obligations.InvalidFileOperandsAreTurnedAway
  refine ⟨fun w h blen s hlen => ⟨Memory.empty, rfl, ?_⟩, fun w h s hz => ?_⟩
  · exact (exec_encfile w h blen s).trans (runEncfile_of_badLength (s := presentEncfile w h blen s) hlen)
  · exact (exec_encfile w h _ s).trans (runEncfile_of_zero (s := presentEncfile w h _ s) rfl hz)

end Sys2Proof.Machine
end

-- ==== Proofs: the reset state (70_reset_and_hazards.md R250, 10_state.md R35) ====
section
/-! Reset answers an idle engine whose byte spaces are all the empty space. Both invariants of the model follow: an empty
space is canonical, and an idle engine owes nothing to a next operation. -/

namespace Sys2Proof.Machine

@[simp] theorem State.reset_pos : State.reset.pos = .idle := rfl
@[simp] theorem State.reset_pay : State.reset.pay = Memory.empty := rfl
@[simp] theorem State.reset_img : State.reset.img = Memory.empty := rfl
@[simp] theorem State.reset_scan : State.reset.scan = Memory.empty := rfl
@[simp] theorem State.reset_z : State.reset.z = Memory.empty := rfl
@[simp] theorem State.reset_out : State.reset.out = Memory.empty := rfl

/-- The base case of the invariant that every step keeps (`everyStepKeepsCanonicalMemory`). -/
theorem canonical_reset : State.reset.Canonical = true := by
  simp [State.Canonical]

/-- The base case of the invariant on the engine's position. -/
theorem coherent_reset : State.reset.Coherent := coherent_of_idle State.reset_pos

/-- Settles O5: the three spaces are the empty space, and the two invariants are those of empty spaces and of an idle
engine. -/
theorem resetIsIdleWithEmptyStreams : Obligations.ResetIsIdleWithEmptyStreams := by
  unfold Obligations.ResetIsIdleWithEmptyStreams
  have hscan : State.reset.scan.bytes = [] := by rw [State.reset_scan, Memory.bytes_empty]
  have hz : State.reset.z.bytes = [] := by rw [State.reset_z, Memory.bytes_empty]
  have hout : State.reset.out.bytes = [] := by rw [State.reset_out, Memory.bytes_empty]
  exact ⟨State.reset_pos, hscan, hz, hout, canonical_reset, coherent_reset⟩

end Sys2Proof.Machine
end
